-- ==== Sys2Proof/Word.lean ====
section
/-! DEFINITION. The word types of the W2640 (00_scope, sections 3.1, 5.2 and 5.5) and the saturating step every count takes. -/

namespace Sys2Proof

/-- One byte of a transaction or a record. -/
abbrev Byte := BitVec 8

/-- A 32-bit word: an address, a fold, a CRC, a version. -/
abbrev Word := BitVec 32

/-- A station address of six bytes. The first byte of the address as it stands in a frame is bits 47..40. -/
abbrev Mac := BitVec 48

/-- An AXI ID. Reports carry it in two bytes (R161, Table 10.11); the width is that of the field (log 7). -/
abbrev AxiId := BitVec 16

/-- The largest value of the counts that run 0..2^32 - 1. -/
def count32 : Nat := 4294967295

/-- A count increased by 1, saturating at `top`. -/
def satInc (top n : Nat) : Nat := min (n + 1) top

end Sys2Proof
end

