-- ==== Sys2Proof/Syntax.lean ====
section
/-! DEFINITION. The events and operations of the W2640: one constructor of `Instr` for each row of spec/opcode_table.json, in the
table's order, with what the outside world gives to the event as its operands. The commands of Table 10.3 have no operands here:
the Command Unit takes the oldest captured command and reads its parameters from the 32 bytes captured (R160, R161). -/

namespace Sys2Proof

/-- The burst type of a transaction (R2, R19, R149). -/
inductive Burst where
  | fixed | incr | wrap
  deriving DecidableEq, Repr

/-- A response of the downstream target, or of the part upstream (R5). -/
inductive Resp where
  | okay | slverr | decerr
  deriving DecidableEq, Repr

/-- The address phase of a transaction: the attributes that R2 names, but for the strobes and the data. `len` is the length in
bytes, as the spec counts it (log 7). -/
structure TxnAddr where
  id    : AxiId
  addr  : Word
  len   : Nat
  size  : Nat
  burst : Burst
  deriving DecidableEq, Repr

/-- One byte of write data with its strobe. -/
structure Lane where
  byte   : Byte
  strobe : Bool
  deriving DecidableEq, Repr

/-- The two reset pins (00_scope, section 5.1). -/
inductive ResetPin where
  | por | rst
  deriving DecidableEq, Repr

/-- What the downstream target returns to a forwarded transaction: one response for a write; the data and a response for each
beat for a read (R5). -/
inductive DownResp where
  | write (r : Resp)
  | read (resps : List Resp) (data : List Byte)
  deriving DecidableEq, Repr

/-- The 70 rows of the opcode table. A `tag` names a transaction inside the part (log 6). -/
inductive Instr where
  | powerOnReset
  | warmReset
  | resetRelease (pin : ResetPin) (ctlSel : BitVec 2)
  | abandonedResponse (tag : Nat)
  | bootRecordReadIssue
  | bootRecordReadComplete (resps : List Resp) (data : List Byte)
  | upstreamWriteArrival (a : TxnAddr)
  | upstreamReadArrival (a : TxnAddr)
  | upstreamWriteReceived (tag : Nat) (data : List Lane)
  | frameStartWrite (tag : Nat) (data : List Lane)
  | peerRecord (tag : Nat) (data : List Lane)
  | commandCapture (tag : Nat) (data : List Lane)
  | tailWordWrite (tag : Nat) (data : List Lane)
  | stagingWriteTracked (tag : Nat) (data : List Lane)
  | bootRecordCheck
  | descriptorDisposition
  | statusRecordDecision
  | signalSample (station : Nat)
  | writeSideGrant
  | readSideGrant
  | downstreamResponse (tag : Nat) (resp : DownResp)
  | refusedWriteResponse (tag : Nat)
  | reportRecordResponse (tag : Nat) (resp : Resp)
  | headWordResponse (tag : Nat) (resp : Resp)
  | dumpWriteResponse (tag : Nat) (resp : Resp)
  | statsWriteResponse (tag : Nat) (resp : Resp)
  | sweepStart
  | sweepReadReturn (tag : Nat) (resps : List Resp) (data : List Byte)
  | uptimeSecond
  | flowAging
  | candidateExpired
  | holdoffExpiry
  | handoffTimeout
  | minuteBoundary
  | lineEdge
  | pacingPeriodBoundary
  | unknownCommand
  | windowSet
  | windowClear
  | descProfileSet
  | statusProfileSet
  | stationSet
  | stationClear
  | ruleSet
  | ruleClear
  | flowPin
  | flowUnpin
  | flowPromote
  | flowFlush
  | pacingSet
  | capSet
  | timeSet
  | scheduleStage
  | allowanceStage
  | scheduleCommit
  | scheduleEvaluate
  | gateSet
  | grant
  | lineSet
  | nodeSet
  | roamProfileSet
  | handoffBegin
  | handoffDecline
  | handoffEnd
  | stageBegin
  | stageCancel
  | stageVerify
  | activationSet
  | stats
  | tick (lineIn : Bool)
  deriving DecidableEq, Repr

end Sys2Proof
end

