-- ==== Sys2Proof/Decode.lean ====
section
/-! DEFINITION. The W2640 decodes no instruction words: no row of spec/opcode_table.json gives bits (every "fields" is empty), so
no word spells an event (log 27). The decoding of command records (R161) is in Machine/Operands.lean. -/

namespace Sys2Proof

/-- The event that a table word spells: none, since no row of the table gives bits. -/
def decodeTableWord (_nbits _w : Nat) : Option Instr := none

end Sys2Proof
end

