-- ==== Sys2Proof/Config.lean ====
section
/-! DEFINITION. What the W2640 fixes (sizes and addresses, each with its rule) and the free values: values the spec does not
state. -/

namespace Sys2Proof.Config

/-- First address above DRAM (Table 0.2, Table 1.5). -/
def dramEnd : Nat := 0x1C000000

/-- Boot alias, bank A, bank B and the size of each (Table 0.2). -/
def aliasBase : Nat := 0x1C000000
def bankABase : Nat := 0x1D000000
def bankBBase : Nat := 0x1E000000
def bankSize : Nat := 0x1000000

/-- The boot record sector, whose first 32 bytes are the boot record (Table 0.2). -/
def sectorBase : Nat := 0x1FFF0000
def sectorSize : Nat := 0x10000
def recordSize : Nat := 32

/-- The control window (section 3.2 of 00_scope, Tables 0.3 and 0.4). -/
def controlSize : Nat := 0x10000
def controlBase (sel : BitVec 2) : Nat :=
  if sel = 0 then 0x00F00000 else if sel = 1 then 0x07F00000 else if sel = 2 then 0x0FF00000 else 0x17F00000
def commandAreaSize : Nat := 0x800
def tailOffset : Nat := 0x800
def headOffset : Nat := 0x808
def ringOffset : Nat := 0x1000
def dumpOffset : Nat := 0x3000
def statsOffset : Nat := 0x4000

/-- At most this many writes stand in the write lists (R4). -/
def listLimit : Nat := 16

/-- The Capture Buffer (R25) and the captured bytes of one frame (R20). -/
def captureLimit : Nat := 256
def captureBytes : Nat := 96

/-- The recent-unknown list (R34). -/
def unknownLimit : Nat := 16

/-- Pinned Flow Table entries (R71, R78). -/
def pinLimit : Nat := 64

/-- References of one hold list and places of the hold pool (R131, R132). -/
def holdLimit : Nat := 32
def poolSize : Nat := 512

/-- Command Queue (R159), waiting reports (R162), ring (R162). -/
def queueLimit : Nat := 8
def waitingLimit : Nat := 16
def ringSize : Nat := 256

/-- A chunk of a staged image (R149) and one sweep read (R152). -/
def chunkSize : Nat := 65536
def sweepRead : Nat := 128

/-- A FREE VALUE (log 16): a 32-bit value that the spec does not state. `State.free` selects a fresh one each time. -/
opaque freeWord : Nat → Word

end Sys2Proof.Config
end

