-- ==== Sys2Proof/Machine/State.lean ====
section
/-! DEFINITION. The state of the W2640 as plain data: every register, list, buffer, counter, mode and pin that the spec gives the
part, block by block as Table 0.1 of 00_scope names them, and `State.reset`. -/

namespace Sys2Proof.Machine

open Sys2Proof

/-! ### Why a step stops -/

/-- The spec names no condition that stops the part, so there is no fault. -/
inductive Fault where
  deriving DecidableEq, Repr

/-- The reasons for which a step has no meaning. -/
inductive Refusal where
  /-- Raised by exec's arm of an event that has no meaning yet. Safe: a run stops where the part would go on. -/
  | notModelled (mnemonic : String)
  deriving DecidableEq, Repr

/-! ### Window Decoder -/

/-- Byte order of a window (section 5.2 of 00_scope). -/
inductive ByteOrder where
  | little | big
  deriving DecidableEq, Repr

/-- Window kinds, in the order of Table 1.5. -/
inductive WindowKind where
  | off | txRing | rxStatus | frameBuffer | peer | control | bootAlias
  deriving DecidableEq, Repr

/-- The queue numbers of a TX_RING window for URGENT, NORMAL, BULK and PARK (Table 1.5). -/
structure QueueMap where
  urgent : BitVec 4
  normal : BitVec 4
  bulk   : BitVec 4
  park   : BitVec 4
  deriving DecidableEq, Repr

/-- One window record (Table 1.5). -/
structure WindowRec where
  kind     : WindowKind
  base     : Nat
  size     : Nat
  order    : ByteOrder
  profile  : Fin 4
  queues   : QueueMap
  stride   : Nat
  headroom : Nat
  deriving DecidableEq, Repr

/-- A slot turned OFF: every other field zero (R9, R11). -/
def WindowRec.off : WindowRec :=
  { kind := .off, base := 0, size := 0, order := .little, profile := 0, queues := ⟨0, 0, 0, 0⟩, stride := 0, headroom := 0 }

/-- Slot 0 for a sample of CTL_SEL (R9). -/
def WindowRec.control (sel : BitVec 2) : WindowRec :=
  { WindowRec.off with kind := .control, base := Config.controlBase sel, size := Config.controlSize }

/-- Slot 1 (R9). -/
def WindowRec.bootAlias : WindowRec :=
  { WindowRec.off with kind := .bootAlias, base := Config.aliasBase, size := Config.bankSize }

/-- A flag of a record: its byte, its bit and the bit value that means the named condition (Tables 1.6, 1.7). -/
structure FlagPos where
  byte  : Nat
  bit   : Nat
  value : Bool
  deriving DecidableEq, Repr

/-- One descriptor profile (Table 1.6). -/
structure DescProfile where
  valid     : Bool
  size      : Nat
  addrOff   : Nat
  lenOff    : Nat
  queueByte : Nat
  queueBit  : Nat
  owner     : FlagPos
  discard   : FlagPos
  deriving DecidableEq, Repr

/-- A descriptor profile after reset: not valid, all fields zero (Table 1.10). -/
def DescProfile.zero : DescProfile :=
  { valid := false, size := 0, addrOff := 0, lenOff := 0, queueByte := 0, queueBit := 0, owner := ⟨0, 0, false⟩, discard := ⟨0, 0, false⟩ }

/-- One status profile (Table 1.7). -/
structure StatusProfile where
  valid     : Bool
  size      : Nat
  macOff    : Nat
  signalOff : Nat
  validFlag : FlagPos
  drop      : FlagPos
  deriving DecidableEq, Repr

/-- A status profile after reset: not valid, all fields zero (Table 1.10). -/
def StatusProfile.zero : StatusProfile :=
  { valid := false, size := 0, macOff := 0, signalOff := 0, validFlag := ⟨0, 0, false⟩, drop := ⟨0, 0, false⟩ }

/-- Window Decoder: the Window Table and the two sets of profiles (R9, R12, R13). -/
structure Windows where
  slots  : Vector WindowRec 16
  desc   : Vector DescProfile 4
  status : Vector StatusProfile 4
  deriving DecidableEq, Repr

/-! ### Path Unit -/

/-- The two reset pins as asserted or not, and the sample of CTL_SEL (R16). -/
structure Pins where
  por    : Bool
  rst    : Bool
  ctlSel : BitVec 2
  deriving DecidableEq, Repr

/-- The start-up sequence of R16: a reset is asserted; waiting for the transactions issued before the reset; the boot-record read
requested; issued under a tag; complete, with the upstream port open. -/
inductive Boot where
  | closed | draining | requesting
  | reading (tag : Nat)
  | opened
  deriving DecidableEq, Repr

/-- The profile that a window record references, as copied at arrival (R1). -/
inductive Layout where
  | plain
  | desc (p : DescProfile)
  | status (p : StatusProfile)
  deriving DecidableEq, Repr

/-- What the lookup of R1 gives a transaction to keep. -/
structure WinCopy where
  slot   : Fin 16
  record : WindowRec
  layout : Layout
  deriving DecidableEq, Repr

/-- Where a write inside the part stands: its data beats awaited; held for its owner (R3); ready (R14); issued downstream;
answered downstream, its response not yet returned upstream; refused (R6), its data beats accepted or not. -/
inductive Stage where
  | arriving | held | ready | issued
  | answered (r : Resp)
  | refused (received : Bool)
  deriving DecidableEq, Repr

/-- One write inside the part. `listed` says that it stands in the write list of its ID (R4); `reserved`, the model's own, that a place of
the lists is kept for it until its reception, or that of an older write of its ID, shows whether it is entered (log 10). -/
structure WriteTx where
  tag      : Nat
  txn      : TxnAddr
  win      : Option WinCopy
  listed   : Bool
  reserved : Bool
  data     : List Lane
  stage    : Stage
  deriving DecidableEq, Repr

/-- One upstream read inside the part, with the result of its lookup (R1) and the address it is issued at (R2, R142). -/
structure ReadTx where
  tag      : Nat
  txn      : TxnAddr
  win      : Option WinCopy
  downAddr : Nat
  issued   : Bool
  deriving DecidableEq, Repr

/-- Path Unit (R3 to R6, R14, R15, R17). `writes` and `reads` are in arrival order, `ready` in the order of becoming ready. -/
structure PathUnit where
  writes    : List WriteTx
  ready     : List Nat
  reads     : List ReadTx
  abandoned : List Nat
  sweepWait : Nat
  nextTag   : Nat
  deriving DecidableEq, Repr

/-- The owners' own writes: a report record, the head word, a hold dump of a slot, a piece of the statistics block (Table 1.8). -/
inductive OwnKind where
  | report | head
  | dump (slot : Fin 16)
  | stats
  deriving DecidableEq, Repr

/-- An own write that requests the write side. -/
structure OwnWrite where
  kind : OwnKind
  addr : Nat
  data : List Byte
  deriving DecidableEq, Repr

/-- Requester (b) of R14: requests in the order they were made, and writes issued and not yet answered. -/
structure OwnPort where
  requests : List OwnWrite
  issued   : List (Nat × OwnKind)
  deriving DecidableEq, Repr

/-- What leaves the part on its two AXI ports: the model's own record of the outputs (log 26). -/
inductive PortEvent where
  | downWrite (tag : Nat) (addr : Nat) (txn : TxnAddr) (data : List Lane)
  | downOwnWrite (tag : Nat) (addr : Nat) (data : List Byte)
  | downRead (tag : Nat) (addr : Nat) (txn : TxnAddr)
  | downOwnRead (tag : Nat) (addr : Nat) (len : Nat)
  | upWriteResp (tag : Nat) (id : AxiId) (r : Resp)
  | upReadResp (tag : Nat) (id : AxiId) (resps : List Resp) (data : List Byte)
  deriving DecidableEq, Repr

/-! ### Capture Unit -/

/-- The kind of a captured frame (R21). -/
inductive FrameKind where
  | ipv4 | ipv6 | other
  deriving DecidableEq, Repr

/-- One capture record (R20 to R25, Table 2.3). -/
structure Capture where
  key     : Nat
  dst     : Mac
  kind    : FrameKind
  proto   : Option Byte
  srcFold : Option Word
  dstFold : Option Word
  dscp    : Option (BitVec 6)
  srcPort : Option (BitVec 16)
  dstPort : Option (BitVec 16)
  uptime  : Nat
  deriving DecidableEq, Repr

/-- Capture Unit: the Capture Buffer, oldest first, and its counts (R25). -/
structure CaptureUnit where
  records  : List Capture
  captured : Nat
  replaced : Nat
  evicted  : Nat
  deriving DecidableEq, Repr

/-! ### Station Table -/

/-- The gate reasons, in the order of R161. -/
structure Reasons where
  window    : Bool
  allowance : Bool
  line      : Bool
  host      : Bool
  deriving DecidableEq, Repr

/-- The roaming states, in the order of Table 2.4. -/
inductive Roam where
  | settled | watch | candidate | handoff | holdoff
  deriving DecidableEq, Repr

/-- A peer entry (section 7.3). -/
structure Peer where
  node       : Nat
  est        : Int
  measuredAt : Nat
  deriving DecidableEq, Repr

/-- One installed station record (Table 2.4). -/
structure Station where
  mac        : Mac
  sched      : Option (Fin 16)
  roam       : Fin 4
  reasons    : Reasons
  noUrgent   : Bool
  free       : Bool
  used       : Nat
  extra      : Nat
  active     : Bool
  lowSent    : Bool
  est        : Option Int
  samples    : Nat
  dwell      : Nat
  peer       : Option Peer
  state      : Roam
  deadline   : Nat
  away       : Bool
  lastUrgent : Option Nat
  slot       : Option (Fin 16)
  forwarded  : Nat
  discarded  : Nat
  parked     : Nat
  overflow   : Nat
  deriving DecidableEq, Repr

/-- An entry of the usage carry list (section 2.7). -/
structure Carry where
  mac   : Mac
  used  : Nat
  extra : Nat
  day   : Nat
  deriving DecidableEq, Repr

/-- Station Table, recent-unknown list (oldest first) and usage carry list (R28, R34, R36). -/
structure StationTable where
  stations : Vector (Option Station) 128
  unknown  : List Mac
  carry    : List Carry
  deriving DecidableEq, Repr

/-! ### Schedule Unit -/

/-- Uptime and its prescaler (R39), with the events of the second that are due and not yet taken: the second itself, the aging (R76) and
the visit of the stations (R125). -/
structure Uptime where
  presc     : Nat
  secs      : Nat
  secondDue : Bool
  agingDue  : Bool
  visitDue  : Bool
  deriving DecidableEq, Repr

/-- The clock of week (R40). -/
structure Clock where
  minute : Nat
  second : Nat
  presc  : Nat
  isSet  : Bool
  deriving DecidableEq, Repr

/-- Action of a schedule window (Table 3.2). -/
inductive Action where
  | block | noUrgent | free
  deriving DecidableEq, Repr

/-- One window of a schedule profile (Table 3.2). -/
structure SchedWindow where
  days   : BitVec 7
  start  : Nat
  stop   : Nat
  action : Action
  deriving DecidableEq, Repr

/-- One copy of a schedule profile (Table 3.2). `closedUnset` is the clock-unset policy CLOSED. -/
structure SchedProfile where
  windows     : Vector SchedWindow 8
  allowance   : Nat
  lineTrigger : Bool
  closedUnset : Bool
  deriving DecidableEq, Repr

/-- The values of Table 3.2 after reset. -/
def SchedProfile.initial : SchedProfile :=
  { windows := Vector.replicate 8 ⟨0, 0, 0, .block⟩, allowance := 0, lineTrigger := false, closedUnset := false }

/-- Line modes (R60). -/
inductive LineMode where
  | off | pause | sync
  deriving DecidableEq, Repr

/-- Line state (Table 3.4). `assertedHigh` is the polarity "asserted is high", `level` the filtered level (high is true). -/
structure Line where
  mode         : LineMode
  assertedHigh : Bool
  follow       : Bool
  level        : Bool
  run          : Nat
  deriving DecidableEq, Repr

/-- Schedule Unit (R40, R43, R46, R60). -/
structure Schedule where
  clock     : Clock
  minuteDue : Bool
  active    : Vector SchedProfile 16
  shadow    : Vector SchedProfile 16
  commit    : Option (BitVec 16)
  line      : Line
  deriving DecidableEq, Repr

/-! ### Classifier -/

/-- The condition fields, in the order of Table 4.1. -/
inductive CondField where
  | dstPort | srcPort | anyPort | protocol | dscp | length
  deriving DecidableEq, Repr

/-- One condition: a field, a comparison set and a reference (Tables 4.1, 4.2). -/
structure Cond where
  field   : CondField
  less    : Bool
  equal   : Bool
  greater : Bool
  ref     : Nat
  deriving DecidableEq, Repr

/-- The class states of a flow (Table 4.5); a rule's class is one of URGENT, NORMAL and BULK (Table 4.1). -/
inductive Class where
  | urgent | demoted | normal | bulk
  deriving DecidableEq, Repr

/-- A Match List rule (Table 4.1). -/
structure Rule where
  c0        : Cond
  c1        : Cond
  cls       : Class
  allowance : Nat
  deriving DecidableEq, Repr

/-- A flow key (Table 4.4). -/
structure FlowKey where
  proto   : Byte
  srcFold : Word
  dstFold : Word
  srcPort : BitVec 16
  dstPort : BitVec 16
  deriving DecidableEq, Repr

/-- An occupied Flow Table entry (Table 4.5). -/
structure Flow where
  key         : FlowKey
  station     : Option (Fin 128)
  cls         : Class
  allowance   : Nat
  pinned      : Bool
  periodBytes : Nat
  overFlag    : Bool
  overCount   : Nat
  lastSeen    : Nat
  count       : Nat
  deriving DecidableEq, Repr

/-- Classifier (R66, R68, R71, R81). -/
structure Classifier where
  rules        : Vector (Option Rule) 32
  flows        : Vector (Option Flow) 256
  decisions    : Vector Nat 32
  defaultCount : Nat
  learned      : Nat
  evicted      : Nat
  aged         : Nat
  removed      : Nat
  deriving DecidableEq, Repr

/-! ### Admission Unit -/

/-- The pacing parameters set together by PACING_SET (R83). -/
structure Pacing where
  period      : Nat
  threshold   : Nat
  idleTimeout : Nat
  deriving DecidableEq, Repr

/-- What the Admission Unit keeps for a window slot (R84, R85, R92). -/
structure AdmSlot where
  cap            : Nat
  stagedCap      : Nat
  capPending     : Bool
  urgent         : Nat
  admitted       : Nat
  spillAllowance : Nat
  spillCap       : Nat
  withheld       : Nat
  deriving DecidableEq, Repr

/-- Admission Unit (R82, R83, R91, R92). -/
structure Admission where
  ticks       : Nat
  boundaryDue : Bool
  params      : Pacing
  staged      : Pacing
  pending     : Bool
  slots       : Vector AdmSlot 16
  admitted    : Bool
  activity    : Bool
  demotions   : Nat
  deriving DecidableEq, Repr

/-! ### Descriptor Rewriter -/

/-- The ten counts of a window slot (Table 6.3). -/
structure SlotCounts where
  forwarded     : Nat
  discarded     : Nat
  parked        : Nat
  uncaptured    : Nat
  unresolved    : Nat
  partials      : Nat
  statusTaken   : Nat
  statusDropped : Nat
  statusUnknown : Nat
  statusPartial : Nat
  deriving DecidableEq, Repr

/-- Descriptor Rewriter: held writes in the order of their reception (R99), counts per slot (R109). -/
structure Rewriter where
  order  : List Nat
  counts : Vector SlotCounts 16
  deriving DecidableEq, Repr

/-! ### Signal Unit -/

/-- The cross-report field, in the order of Table 7.1. -/
inductive CrossReport where
  | none | falling | rising | both
  deriving DecidableEq, Repr

/-- A roaming profile (Table 7.1). -/
structure RoamProfile where
  tWeak            : Int
  hys              : Nat
  tFloor           : Int
  dwell            : Nat
  margin           : Nat
  gameMargin       : Nat
  shift            : Nat
  urgentRecent     : Nat
  holdoff          : Nat
  candidateTimeout : Nat
  handoffTimeout   : Nat
  peerMaxAge       : Nat
  cross            : CrossReport
  deriving DecidableEq, Repr

/-- Table 7.1 after either reset. -/
def RoamProfile.initial : RoamProfile :=
  { tWeak := -72, hys := 4, tFloor := -85, dwell := 8, margin := 6, gameMargin := 4, shift := 3, urgentRecent := 10, holdoff := 30,
    candidateTimeout := 5, handoffTimeout := 3, peerMaxAge := 10, cross := .none }

/-- A signal sample handed over by the decision of a status record (R108, section 7.2). -/
structure Sample where
  station : Fin 128
  mac     : Mac
  raw     : Byte
  deriving DecidableEq, Repr

/-- Signal Unit (R112, R114, R129). -/
structure SignalUnit where
  profiles       : Vector RoamProfile 4
  node           : Nat
  samples        : List Sample
  samplesTaken   : Nat
  samplesInvalid : Nat
  samplesLost    : Nat
  peerTaken      : Nat
  peerIgnored    : Nat
  peerPartial    : Nat
  deriving DecidableEq, Repr

/-! ### Hold Unit -/

/-- The dispositions of a reference (Tables 8.3, 10.9). -/
inductive Disposition where
  | forward | resend | discard
  deriving DecidableEq, Repr

/-- How a handoff ended, in the order of Table 10.11. -/
inductive HandoffOutcome where
  | departed | stayed | timedOut | cleared
  deriving DecidableEq, Repr

/-- A hold reference (R131). -/
structure HoldRef where
  addr    : Nat
  length  : Nat
  slot    : Fin 16
  arrival : Nat
  deriving DecidableEq, Repr

/-- A slot OCCUPIED for a handoff, with the station's hold list (Table 8.1, R131). -/
structure Occupied where
  station  : Fin 128
  tag      : BitVec 16
  start    : Nat
  requests : Nat
  list     : List HoldRef
  deriving DecidableEq, Repr

/-- A slot DUMPING: the dump buffer, the values HOLD_RELEASE will carry, and the dump responses awaited (Table 8.1, R137). -/
structure Dumping where
  station  : Fin 128
  tag      : BitVec 16
  start    : Nat
  requests : Nat
  buffer   : List (HoldRef × Disposition)
  outcome  : HandoffOutcome
  overflow : Nat
  fault    : Bool
  awaited  : Nat
  deriving DecidableEq, Repr

/-- The three states of a handoff slot (R130). -/
inductive HandoffSlot where
  | free
  | occupied (o : Occupied)
  | dumping (d : Dumping)
  deriving DecidableEq, Repr

/-- Hold Unit (R130, R131, R141). -/
structure HoldUnit where
  slots      : Vector HandoffSlot 16
  free       : Nat
  departed   : Nat
  stayed     : Nat
  timedOut   : Nat
  cleared    : Nat
  dumpFaults : Nat
  deriving DecidableEq, Repr

/-! ### Image Unit -/

/-- The flash banks (R142). -/
inductive Bank where
  | a | b
  deriving DecidableEq, Repr

/-- Chunk states (Table 9.4). -/
inductive ChunkState where
  | empty | filling | complete | disordered
  deriving DecidableEq, Repr

/-- A chunk record (Table 9.4). -/
structure Chunk where
  state    : ChunkState
  progress : Nat
  deriving DecidableEq, Repr

/-- Staging states, in the order of Table 9.4. -/
inductive StagingState where
  | idle | receiving | complete | verifying | verified | corrupt
  deriving DecidableEq, Repr

/-- What a sweep does next: it waits for the writes received before STAGE_VERIFY (R151); its next read waits for a grant (R15);
that read is issued. -/
inductive SweepStep where
  | awaiting | waiting
  | reading (tag : Nat)
  deriving DecidableEq, Repr

/-- A verification sweep (Table 9.4, R151, R152). `crc` is the CRC register, `writes` the tags of the writes it waits for. -/
structure Sweep where
  share  : Nat
  yields : Bool
  offset : Nat
  crc    : Word
  writes : List Nat
  step   : SweepStep
  deriving DecidableEq, Repr

/-- The staging context (Table 9.4). `stale` holds the tags of reads issued by a sweep that has ended (R153). -/
structure Staging where
  state       : StagingState
  bank        : Option Bank
  length      : Nat
  expectedCrc : Word
  version     : Word
  chunkCount  : Nat
  chunks      : Vector Chunk 256
  sweep       : Option Sweep
  stale       : List Nat
  deriving DecidableEq, Repr

/-- The activation window (R154). -/
structure ActWindow where
  enabled : Bool
  days    : BitVec 7
  start   : Nat
  stop    : Nat
  quiet   : Nat
  deriving DecidableEq, Repr

/-- Image Unit (R142, R145, R157). `checks` holds the tags of record writes held for their check (R146). -/
structure ImageUnit where
  bank           : Bank
  trial          : Nat
  record         : Option (List Byte)
  checks         : List Nat
  staging        : Staging
  window         : ActWindow
  dueSent        : Bool
  refusedWrites  : Nat
  refusedRecords : Nat
  outside        : Nat
  deriving DecidableEq, Repr

/-! ### Command Unit -/

/-- The completion statuses, in the order of Table 10.1. -/
inductive Status where
  | done | accepted | refusedRange | refusedState | refusedPending | refusedFull | refusedDuplicate | refusedOverlap | refusedUnknown
  deriving DecidableEq, Repr

/-- Start-up causes (Table 10.11). -/
inductive BootCause where
  | invalid | normal | trial
  deriving DecidableEq, Repr

/-- Faults of a boot record or its read (R144, Table 10.11). -/
inductive RecordFault where
  | magic | crc | bank | trial | readError
  deriving DecidableEq, Repr

/-- Why a record write is refused (R146). -/
inductive RecordCause where
  | fault (f : RecordFault)
  | notVerified | versionMismatch
  deriving DecidableEq, Repr

/-- The regions of Table 9.1. -/
inductive RefusedRegion where
  | bootAlias | bankInForce | recordSector
  deriving DecidableEq, Repr

/-- The causes of GATE_CHANGE (R49). -/
inductive GateCause where
  | boundary | timeSet | evaluate | grant | gateSet | line | stationSet
  deriving DecidableEq, Repr

/-- The sub-codes of LINE_EVENT (R62, R63). -/
inductive LineSub where
  | asserted | released | syncForward | syncBack
  deriving DecidableEq, Repr

/-- The results of a sweep (Table 10.11). -/
inductive VerifyResult where
  | verified | mismatch | readError | interrupted
  deriving DecidableEq, Repr

/-- The reports of Table 10.11 with the values they carry. -/
inductive Report where
  | completion (status : Status) (tag : Nat) (kind : Byte) (result : List Byte)
  | cmdIgnored (offset len : Nat) (id : AxiId)
  | lost (count : Nat)
  | statsWritten (fault : Bool) (sec bytes : Nat)
  | bootStatus (cause : BootCause) (bank : Bank) (trial : Nat) (reverted : Bool) (fault : Option RecordFault) (versionA versionB : Word)
  | writeRefused (region : RefusedRegion) (addr : Word) (len : Nat) (id : AxiId)
  | recordRefused (cause : RecordCause) (selected : Byte) (version : Word) (state : StagingState) (stagingVersion : Word)
  | confirmed (bank : Bank) (version : Word)
  | unknownStation (mac : Mac) (slot : Fin 16) (raw : Byte)
  | gateChange (cause : GateCause) (station : Fin 128) (closed : Bool) (reasons : Reasons)
  | allowanceLow (station : Fin 128) (used extra limit remaining : Nat)
  | commitApplied (mask : BitVec 16)
  | lineEvent (sub : LineSub) (value : Nat)
  | flowDemoted (entry : Fin 256) (station : Option (Fin 128)) (key : FlowKey) (allowance overCount count : Nat)
  | pacingApplied (p : Pacing)
  | capApplied (slot : Fin 16) (cap : Nat)
  | signalCross (rising : Bool) (station : Fin 128) (mac : Mac) (est sample weak : Int)
  | handoffCandidate (station : Fin 128) (mac : Mac) (est peer : Int) (node : Nat) (margin : Int) (urgentRaised : Bool)
  | candidateExpired (station : Fin 128) (mac : Mac) (est : Option Int)
  | candidateWithdrawn (station : Fin 128) (mac : Mac) (est : Int)
  | holdRelease (outcome : HandoffOutcome) (station : Fin 128) (tag : BitVec 16) (held overflow : Nat) (slot : Fin 16) (fault : Bool)
      (start requests : Nat)
  | stageComplete (length : Nat) (version : Word) (chunks : Nat)
  | verifyResult (result : VerifyResult) (crc expected version : Word) (offset imageOffset : Nat)
  | activationDue (bank : Bank) (version : Word) (minute uptime : Nat)
  deriving DecidableEq, Repr

/-- A produced report with its uptime at production (Table 10.6). -/
structure Waiting where
  report : Report
  uptime : Nat
  deriving DecidableEq, Repr

/-- The command whose execution goes on after an event of another block: HANDOFF_END and STATION_CLEAR wait for the release of a slot
(R133, R134), STATION_CLEAR for its second step once the release is over and for its last one once it has taken its second (R32, R77,
R110), STATS for its writes (R165). -/
inductive Executing where
  | idle
  | ending (slot : Fin 16)
  | clearing (slot : Fin 16) (station : Fin 128)
  | removing (station : Fin 128)
  | emptying (station : Fin 128)
  | stats (sec bytes awaited : Nat) (fault : Bool)
  deriving DecidableEq, Repr

/-- Command Unit (R158 to R166). -/
structure CommandUnit where
  queue        : List (List Byte)
  executing    : Executing
  held         : List Nat
  head         : Nat
  tail         : Nat
  waiting      : List Waiting
  lost         : Nat
  ignored      : Nat
  tailIgnored  : Nat
  reportFaults : Nat
  deriving DecidableEq, Repr

/-! ### The whole part -/

/-- The state of the W2640. `pending`, `ports` and `free` are the model's own (logs 2, 26 and 16). -/
structure State where
  pending : List Instr
  pins    : Pins
  boot    : Boot
  path    : PathUnit
  own     : OwnPort
  win     : Windows
  capture : CaptureUnit
  sta     : StationTable
  time    : Uptime
  sched   : Schedule
  cls     : Classifier
  adm     : Admission
  rew     : Rewriter
  sig     : SignalUnit
  hold    : HoldUnit
  img     : ImageUnit
  cmd     : CommandUnit
  ports   : List PortEvent
  free    : Nat
  deriving DecidableEq, Repr

/-! ### After reset -/

/-- Table 1.10 for a sample of CTL_SEL. -/
def Windows.initial (sel : BitVec 2) : Windows :=
  { slots := ((Vector.replicate 16 WindowRec.off).set 0 (WindowRec.control sel)).set 1 WindowRec.bootAlias,
    desc := Vector.replicate 4 DescProfile.zero, status := Vector.replicate 4 StatusProfile.zero }

/-- R27. -/
def CaptureUnit.initial : CaptureUnit := { records := [], captured := 0, replaced := 0, evicted := 0 }

/-- R38, with the carry list that the kind of reset leaves. -/
def StationTable.initial (carry : List Carry) : StationTable :=
  { stations := Vector.replicate 128 none, unknown := [], carry := carry }

/-- R39. -/
def Uptime.initial : Uptime := { presc := 0, secs := 0, secondDue := false, agingDue := false, visitDue := false }

/-- R41, at the release of POR_N. -/
def Clock.initial : Clock := { minute := 0, second := 0, presc := 0, isSet := false }

/-- Table 3.4. -/
def Line.initial : Line := { mode := .off, assertedHigh := true, follow := false, level := false, run := 0 }

/-- Table 3.6, with the clock that the kind of reset leaves. -/
def Schedule.initial (clock : Clock) (due : Bool) : Schedule :=
  { clock := clock, minuteDue := due, active := Vector.replicate 16 SchedProfile.initial, shadow := Vector.replicate 16 SchedProfile.initial,
    commit := none, line := Line.initial }

/-- Table 4.7. -/
def Classifier.initial : Classifier :=
  { rules := Vector.replicate 32 none, flows := Vector.replicate 256 none, decisions := Vector.replicate 32 0, defaultCount := 0,
    learned := 0, evicted := 0, aged := 0, removed := 0 }

/-- A slot of Table 5.4. -/
def AdmSlot.initial : AdmSlot :=
  { cap := 0, stagedCap := 0, capPending := false, urgent := 0, admitted := 0, spillAllowance := 0, spillCap := 0, withheld := 0 }

/-- Table 5.4. -/
def Admission.initial : Admission :=
  { ticks := 0, boundaryDue := false, params := ⟨10, 3, 60⟩, staged := ⟨0, 0, 0⟩, pending := false,
    slots := Vector.replicate 16 AdmSlot.initial, admitted := false, activity := false, demotions := 0 }

/-- A slot's counts at 0 (R111). -/
def SlotCounts.zero : SlotCounts :=
  { forwarded := 0, discarded := 0, parked := 0, uncaptured := 0, unresolved := 0, partials := 0, statusTaken := 0, statusDropped := 0,
    statusUnknown := 0, statusPartial := 0 }

/-- R111. -/
def Rewriter.initial : Rewriter := { order := [], counts := Vector.replicate 16 SlotCounts.zero }

/-- Table 7.5. -/
def SignalUnit.initial : SignalUnit :=
  { profiles := Vector.replicate 4 RoamProfile.initial, node := 0, samples := [], samplesTaken := 0, samplesInvalid := 0, samplesLost := 0,
    peerTaken := 0, peerIgnored := 0, peerPartial := 0 }

/-- R141. -/
def HoldUnit.initial : HoldUnit :=
  { slots := Vector.replicate 16 .free, free := Config.poolSize, departed := 0, stayed := 0, timedOut := 0, cleared := 0, dumpFaults := 0 }

/-- The staging context of Table 9.4 after reset. -/
def Staging.initial : Staging :=
  { state := .idle, bank := none, length := 0, expectedCrc := 0, version := 0, chunkCount := 0, chunks := Vector.replicate 256 ⟨.empty, 0⟩,
    sweep := none, stale := [] }

/-- R157, with the trial count that the kind of reset leaves. The bank in force is decided by the boot-record read; A until then is
a DESIGN CHOICE (log 23), as are the zeros of the disabled activation window. -/
def ImageUnit.initial (trial : Nat) : ImageUnit :=
  { bank := .a, trial := trial, record := none, checks := [], staging := Staging.initial, window := ⟨false, 0, 0, 0, 0⟩, dueSent := false,
    refusedWrites := 0, refusedRecords := 0, outside := 0 }

/-- R166. -/
def CommandUnit.initial : CommandUnit :=
  { queue := [], executing := .idle, held := [], head := 0, tail := 0, waiting := [], lost := 0, ignored := 0, tailIgnored := 0,
    reportFaults := 0 }

/-- The path after a reset: nothing inside the part but the responses it still awaits (R17). -/
def PathUnit.initial (abandoned : List Nat) (nextTag : Nat) : PathUnit :=
  { writes := [], ready := [], reads := [], abandoned := abandoned, sweepWait := 0, nextTag := nextTag }

/-- No own write requested or issued (R17). -/
def OwnPort.initial : OwnPort := { requests := [], issued := [] }

/-- The part after power-on, POR_N still asserted (log 13): the first event of a run is RESET_RELEASE (log 14). The slot 0 base
before the first sample of CTL_SEL is that of sample 0, a DESIGN CHOICE (log 13). -/
def State.reset : State :=
  { pending := [], pins := ⟨true, false, 0⟩, boot := .closed, path := PathUnit.initial [] 0, own := OwnPort.initial,
    win := Windows.initial 0, capture := CaptureUnit.initial, sta := StationTable.initial [], time := Uptime.initial,
    sched := Schedule.initial Clock.initial false, cls := Classifier.initial, adm := Admission.initial, rew := Rewriter.initial,
    sig := SignalUnit.initial, hold := HoldUnit.initial, img := ImageUnit.initial 0, cmd := CommandUnit.initial, ports := [], free := 0 }

end Sys2Proof.Machine
end

