-- ==== Sys2Proof/Machine/Flags.lean ====
section
/-! DEFINITION. Bytes, byte order, the flags of records and the gate: how fields are read from and written into the bytes of a
record (R7, R161), the logical polarity of flags (R7), the gate of a station (section 2.4), and the CRC-32 of R144. -/

namespace Sys2Proof.Machine

open Sys2Proof

/-! ### Numbers in bytes -/

/-- The value of bytes, least significant first. -/
def leNat : List Byte → Nat
  | [] => 0
  | b :: bs => b.toNat + 256 * leNat bs

/-- The value of bytes, most significant first (network order, big-endian windows). -/
def beNat (bs : List Byte) : Nat := leNat bs.reverse

/-- The `n` low bytes of a value, least significant first. -/
def leBytes : Nat → Nat → List Byte
  | 0, _ => []
  | n + 1, v => BitVec.ofNat 8 v :: leBytes n (v / 256)

/-- A signed value as its `n` two's-complement bytes, least significant first (R161). -/
def leInt (n : Nat) (v : Int) : List Byte := leBytes n (v % (256 ^ n : Nat)).toNat

/-- `n` bytes from `off`. -/
def slice (bs : List Byte) (off n : Nat) : List Byte := (bs.drop off).take n

/-- The byte at `i`, 0 beyond the end. -/
def byteAt (bs : List Byte) (i : Nat) : Byte := bs.getD i 0

/-- A multi-byte field in the byte order of its window (R7). -/
def fieldIn (order : ByteOrder) (bs : List Byte) (off n : Nat) : Nat :=
  match order with
  | .little => leNat (slice bs off n)
  | .big => beNat (slice bs off n)

/-- A MAC of six bytes in frame order (R7, R161). -/
def macAt (bs : List Byte) (off : Nat) : Mac := BitVec.ofNat 48 (beNat (slice bs off 6))

/-- The six bytes of a MAC in frame order. -/
def macBytes (m : Mac) : List Byte := (leBytes 6 m.toNat).reverse

/-- A group address: the lowest bit of the first byte is 1 (R28). -/
def isGroup (m : Mac) : Bool := m.getLsbD 40

/-- A two's-complement value of a 16-bit field. -/
def signed16 (n : Nat) : Int := (BitVec.ofNat 16 n).toInt

/-! ### Flags and fields of a record (R7) -/

/-- A flag is set, or reads its named condition, when its bit holds the profile's value. -/
def flagSet (bs : List Byte) (f : FlagPos) : Bool := (byteAt bs f.byte).getLsbD f.bit == f.value

/-- A byte with one bit given a value. -/
def withBit (b : Byte) (bit : Nat) (v : Bool) : Byte :=
  if v then b ||| (1#8 <<< bit) else b &&& ~~~(1#8 <<< bit)

/-- The part sets a flag: it writes the value that means the named condition, and changes no other bit. -/
def setFlag (bs : List Byte) (f : FlagPos) : List Byte := bs.set f.byte (withBit (byteAt bs f.byte) f.bit f.value)

/-- A byte whose four bits from `low` receive a queue number. -/
def withQueue (b : Byte) (low : Nat) (q : BitVec 4) : Byte := (b &&& ~~~(0x0F#8 <<< low)) ||| (q.zeroExtend 8 <<< low)

/-- The queue field of a descriptor receives a queue number. -/
def setQueue (bs : List Byte) (p : DescProfile) (q : BitVec 4) : List Byte :=
  bs.set p.queueByte (withQueue (byteAt bs p.queueByte) p.queueBit q)

/-- The bytes of write data. -/
def laneBytes (d : List Lane) : List Byte := d.map Lane.byte

/-- Every byte strobe is set. -/
def strobesSet (d : List Lane) : Bool := d.all Lane.strobe

/-- Rewritten bytes under the strobes the write arrived with (R7: "The byte strobes and the write's length are left unchanged"). -/
def withBytes (d : List Lane) (bs : List Byte) : List Lane := List.zipWith (fun l b => { l with byte := b }) d bs

/-! ### The gate -/

/-- The gate is CLOSED when the reason set is non-empty (section 2.4). -/
def Reasons.closed (r : Reasons) : Bool := r.window || r.allowance || r.line || r.host

/-- The gate of a station. -/
def Station.closed (st : Station) : Bool := st.reasons.closed

/-- No reason. -/
def Reasons.none : Reasons := ⟨false, false, false, false⟩

/-- A reason set as bits (R161). -/
def Reasons.code (r : Reasons) : Nat := r.window.toNat + 2 * r.allowance.toNat + 4 * r.line.toNat + 8 * r.host.toNat

/-! ### CRC-32 (R144) -/

/-- One bit of the reflected CRC. -/
def crcBit (r : Word) : Word := if r.getLsbD 0 then (r >>> 1) ^^^ 0xEDB88320#32 else r >>> 1

/-- One byte, least significant bit first. -/
def crcByte (r : Word) (b : Byte) : Word :=
  crcBit (crcBit (crcBit (crcBit (crcBit (crcBit (crcBit (crcBit (r ^^^ b.zeroExtend 32))))))))

/-- The register starts at all ones. -/
def crcStart : Word := 0xFFFFFFFF#32

/-- The register after some bytes. -/
def crcBytes (r : Word) (bs : List Byte) : Word := bs.foldl crcByte r

/-- The result: the register's final value inverted. -/
def crcResult (r : Word) : Word := ~~~r

/-- The CRC-32 of bytes. -/
def crc32 (bs : List Byte) : Word := crcResult (crcBytes crcStart bs)

end Sys2Proof.Machine
end

