-- ==== Sys2Proof/Machine/Operands.lean ====
section
/-! DEFINITION. The operands of commands and records: command parameters packed little-endian from byte 4 (R161, Table 10.3), the
peer record (Table 10.8), the boot record (Table 10.10), and the shape of records in windows (R8). -/

namespace Sys2Proof.Machine

open Sys2Proof

/-! ### Parameters (R161). `p` is the command's bytes from byte 4. -/

/-- One-byte, two-byte and four-byte parameters. -/
def param1 (p : List Byte) (i : Nat) : Nat := (byteAt p i).toNat
def param2 (p : List Byte) (i : Nat) : Nat := leNat (slice p i 2)
def param4 (p : List Byte) (i : Nat) : Nat := leNat (slice p i 4)

/-- A signed one-byte parameter. -/
def paramS (p : List Byte) (i : Nat) : Int := (byteAt p i).toInt

/-- A flag is one byte, 0 or 1. -/
def flagOf (n : Nat) : Option Bool := if n = 0 then some false else if n = 1 then some true else none

/-- An index below `n`. -/
def indexOf (n k : Nat) : Option (Fin n) := if h : k < n then some ⟨k, h⟩ else none

/-- The window kinds software may set, coded in the order of Table 1.5 (log 17). -/
def windowKindOf (n : Nat) : Option WindowKind :=
  if n = 1 then some .txRing else if n = 2 then some .rxStatus else if n = 3 then some .frameBuffer else if n = 4 then some .peer else none

def byteOrderOf (n : Nat) : Option ByteOrder := if n = 0 then some .little else if n = 1 then some .big else none

def condFieldOf (n : Nat) : Option CondField :=
  if n = 0 then some .dstPort else if n = 1 then some .srcPort else if n = 2 then some .anyPort else if n = 3 then some .protocol
  else if n = 4 then some .dscp else if n = 5 then some .length else none

/-- URGENT, NORMAL, BULK in the order of Table 4.1. -/
def classOf (n : Nat) : Option Class :=
  if n = 0 then some .urgent else if n = 1 then some .normal else if n = 2 then some .bulk else none

def actionOf (n : Nat) : Option Action :=
  if n = 0 then some .block else if n = 1 then some .noUrgent else if n = 2 then some .free else none

/-- "enabled or disabled" (Table 3.2), coded in that order (log 17). -/
def triggerOf (n : Nat) : Option Bool := if n = 0 then some true else if n = 1 then some false else none

/-- "OPEN or CLOSED" (Table 3.2); the value is whether the policy is CLOSED. -/
def policyOf (n : Nat) : Option Bool := if n = 0 then some false else if n = 1 then some true else none

def lineModeOf (n : Nat) : Option LineMode :=
  if n = 0 then some .off else if n = 1 then some .pause else if n = 2 then some .sync else none

/-- "asserted is high, or asserted is low" (Table 3.4), coded in that order (log 17). -/
def polarityOf (n : Nat) : Option Bool := if n = 0 then some true else if n = 1 then some false else none

def crossOf (n : Nat) : Option CrossReport :=
  if n = 0 then some .none else if n = 1 then some .falling else if n = 2 then some .rising else if n = 3 then some .both else none

/-- The outcomes a HANDOFF_END may name (R133). -/
def endOutcomeOf (n : Nat) : Option HandoffOutcome := if n = 0 then some .departed else if n = 1 then some .stayed else none

/-- A schedule profile 0..15, or none coded 0xFF (R161); the outer option is the range check. -/
def schedOf (n : Nat) : Option (Option (Fin 16)) := if n = 255 then some none else (indexOf 16 n).map some

/-- A day mask with no bit above bit 6. -/
def daysOf (n : Nat) : Option (BitVec 7) := if n < 128 then some (BitVec.ofNat 7 n) else none

/-- A flow key of 13 bytes: protocol 1, source fold 4, destination fold 4, source port 2, destination port 2 (below Table 10.3). -/
def flowKeyAt (p : List Byte) (i : Nat) : FlowKey :=
  { proto := byteAt p i, srcFold := BitVec.ofNat 32 (param4 p (i + 1)), dstFold := BitVec.ofNat 32 (param4 p (i + 5)),
    srcPort := BitVec.ofNat 16 (param2 p (i + 9)), dstPort := BitVec.ofNat 16 (param2 p (i + 11)) }

/-! ### Windows and profiles -/

/-- The parameters of WINDOW_SET as written (R10, Table 10.3). -/
structure WindowParams where
  slot     : Nat
  kind     : Nat
  base     : Nat
  size     : Nat
  order    : Nat
  profile  : Nat
  queues   : List Nat
  stride   : Nat
  headroom : Nat
  deriving DecidableEq, Repr

def windowParams (p : List Byte) : WindowParams :=
  { slot := param1 p 0, kind := param1 p 1, base := param4 p 2, size := param4 p 6, order := param1 p 10, profile := param1 p 11,
    queues := [param1 p 12, param1 p 13, param1 p 14, param1 p 15], stride := param2 p 16, headroom := param1 p 18 }

/-- A power of two from 256 to 16384 (Table 1.5). -/
def strideOk (n : Nat) : Bool := n == 256 || n == 512 || n == 1024 || n == 2048 || n == 4096 || n == 8192 || n == 16384

/-- Base and size in the ranges of Table 1.5. -/
def rangeOk (base size : Nat) : Bool :=
  base % 4096 == 0 && decide (base < Config.dramEnd) && size % 4096 == 0 && decide (4096 ≤ size) && decide (size ≤ 0x10000000) &&
    decide (base + size ≤ Config.dramEnd)

/-- A descriptor profile from the eleven one-byte fields of Table 1.6, in the table's order; the value bits must be 0 or 1. -/
def descProfileOf (p : List Byte) (i : Nat) : Option DescProfile :=
  match flagOf (param1 p (i + 7)), flagOf (param1 p (i + 10)) with
  | some ready, some discard =>
    some { valid := true, size := param1 p i, addrOff := param1 p (i + 1), lenOff := param1 p (i + 2), queueByte := param1 p (i + 3),
           queueBit := param1 p (i + 4), owner := ⟨param1 p (i + 5), param1 p (i + 6), ready⟩,
           discard := ⟨param1 p (i + 8), param1 p (i + 9), discard⟩ }
  | _, _ => none

/-- A byte lies in the field of `n` bytes at `off`. -/
def inField (byte off n : Nat) : Bool := decide (off ≤ byte) && decide (byte < off + n)

/-- A flag shares a bit with the queue field. -/
def flagInQueue (d : DescProfile) (f : FlagPos) : Bool :=
  f.byte == d.queueByte && decide (d.queueBit ≤ f.bit) && decide (f.bit ≤ d.queueBit + 3)

/-- The checks of R12 on the fields of Table 1.6. -/
def DescProfile.ok (d : DescProfile) : Bool :=
  (d.size == 16 || d.size == 32) && decide (d.addrOff + 4 ≤ d.size) && decide (d.lenOff + 2 ≤ d.size) &&
    decide (d.queueByte < d.size) && decide (d.queueBit ≤ 4) &&
    decide (d.owner.byte < d.size) && decide (d.owner.bit ≤ 7) && decide (d.discard.byte < d.size) && decide (d.discard.bit ≤ 7) &&
    (decide (d.addrOff + 4 ≤ d.lenOff) || decide (d.lenOff + 2 ≤ d.addrOff)) &&
    !(flagInQueue d d.owner) && !(flagInQueue d d.discard) &&
    !(d.owner.byte == d.discard.byte && d.owner.bit == d.discard.bit) &&
    !(inField d.queueByte d.addrOff 4 || inField d.queueByte d.lenOff 2) &&
    !(inField d.owner.byte d.addrOff 4 || inField d.owner.byte d.lenOff 2) &&
    !(inField d.discard.byte d.addrOff 4 || inField d.discard.byte d.lenOff 2)

/-- A status profile from the nine one-byte fields of Table 1.7, in the table's order. -/
def statusProfileOf (p : List Byte) (i : Nat) : Option StatusProfile :=
  match flagOf (param1 p (i + 5)), flagOf (param1 p (i + 8)) with
  | some valid, some drop =>
    some { valid := true, size := param1 p i, macOff := param1 p (i + 1), signalOff := param1 p (i + 2),
           validFlag := ⟨param1 p (i + 3), param1 p (i + 4), valid⟩, drop := ⟨param1 p (i + 6), param1 p (i + 7), drop⟩ }
  | _, _ => none

/-- The checks of R13 on the fields of Table 1.7. -/
def StatusProfile.ok (d : StatusProfile) : Bool :=
  (d.size == 16 || d.size == 32 || d.size == 64) && decide (d.macOff + 6 ≤ d.size) && decide (d.signalOff < d.size) &&
    decide (d.validFlag.byte < d.size) && decide (d.validFlag.bit ≤ 7) && decide (d.drop.byte < d.size) && decide (d.drop.bit ≤ 7) &&
    !(inField d.signalOff d.macOff 6) &&
    !(d.validFlag.byte == d.drop.byte && d.validFlag.bit == d.drop.bit) &&
    !(inField d.validFlag.byte d.macOff 6 || d.validFlag.byte == d.signalOff) &&
    !(inField d.drop.byte d.macOff 6 || d.drop.byte == d.signalOff)

/-! ### Rules of the Match List (R66) -/

/-- A condition: field, set and reference; none when the field or the set is out of range. -/
def condAt (p : List Byte) (i : Nat) : Option Cond :=
  match condFieldOf (param1 p i) with
  | none => none
  | some f =>
    if param1 p (i + 1) < 8 then
      some { field := f, less := (byteAt p (i + 1)).getLsbD 0, equal := (byteAt p (i + 1)).getLsbD 1,
             greater := (byteAt p (i + 1)).getLsbD 2, ref := param2 p (i + 2) }
    else none

/-- A class with its allowance: 1..1023 for URGENT, stored as 0 for the others (R66, R78). -/
def classAllowance (cls allowance : Nat) : Option (Class × Nat) :=
  match classOf cls with
  | none => none
  | some .urgent => if 1 ≤ allowance ∧ allowance ≤ 1023 then some (.urgent, allowance) else none
  | some c => some (c, 0)

/-- The rule of RULE_SET's parameters after the index. -/
def ruleAt (p : List Byte) (i : Nat) : Option Rule :=
  match condAt p i, condAt p (i + 4), classAllowance (param1 p (i + 8)) (param2 p (i + 9)) with
  | some c0, some c1, some (cls, allowance) => some { c0 := c0, c1 := c1, cls := cls, allowance := allowance }
  | _, _, _ => none

/-! ### Roaming profiles (R113) -/

/-- The thirteen fields of Table 7.1 in the table's order, or none when one is outside its range or T_floor is not below T_weak. -/
def roamProfileAt (p : List Byte) (i : Nat) : Option RoamProfile :=
  match crossOf (param1 p (i + 12)) with
  | none => none
  | some cross =>
    let r : RoamProfile :=
      { tWeak := paramS p i, hys := param1 p (i + 1), tFloor := paramS p (i + 2), dwell := param1 p (i + 3), margin := param1 p (i + 4),
        gameMargin := param1 p (i + 5), shift := param1 p (i + 6), urgentRecent := param1 p (i + 7), holdoff := param1 p (i + 8),
        candidateTimeout := param1 p (i + 9), handoffTimeout := param1 p (i + 10), peerMaxAge := param1 p (i + 11), cross := cross }
    if -95 ≤ r.tWeak ∧ r.tWeak ≤ -40 ∧ 1 ≤ r.hys ∧ r.hys ≤ 15 ∧ -100 ≤ r.tFloor ∧ r.tFloor ≤ -50 ∧ r.tFloor < r.tWeak ∧
        1 ≤ r.dwell ∧ r.dwell ≤ 63 ∧ 1 ≤ r.margin ∧ r.margin ≤ 30 ∧ r.gameMargin ≤ 20 ∧ 1 ≤ r.shift ∧ r.shift ≤ 6 ∧
        1 ≤ r.urgentRecent ∧ r.urgentRecent ≤ 60 ∧ 1 ≤ r.holdoff ∧ r.holdoff ≤ 255 ∧ 1 ≤ r.candidateTimeout ∧ r.candidateTimeout ≤ 30 ∧
        1 ≤ r.handoffTimeout ∧ r.handoffTimeout ≤ 30 ∧ 1 ≤ r.peerMaxAge ∧ r.peerMaxAge ≤ 60 then
      some r
    else none

/-! ### Records in windows (R8) -/

/-- The write covers consecutive bytes from its start ("covers the whole record", section 5.3 of 00_scope): a fixed burst does so
only as a single beat (log 8). -/
def covers (t : TxnAddr) : Bool := t.burst != .fixed || decide (t.len ≤ 8 ∧ t.len ≤ 2 ^ t.size)

/-- The shape of R8: the start address is the first byte of a record that ends inside the range, and the length is the record's. -/
def shapeComplete (base size recSize : Nat) (t : TxnAddr) : Bool :=
  decide (base ≤ t.addr.toNat) && decide (0 < recSize) && (t.addr.toNat - base) % recSize == 0 &&
    decide (t.addr.toNat + recSize ≤ base + size) && t.len == recSize && covers t

/-- Complete for a record: the shape, and every strobe set (R8). -/
def complete (base size recSize : Nat) (t : TxnAddr) (d : List Lane) : Bool := shapeComplete base size recSize t && strobesSet d

/-! ### The peer record (Table 10.8) and the boot record (Table 10.10) -/

/-- A peer record as read in its window's byte order. -/
structure PeerRecord where
  mac  : Mac
  node : Nat
  est  : Int
  age  : Nat
  deriving DecidableEq, Repr

def peerRecordOf (order : ByteOrder) (bs : List Byte) : PeerRecord :=
  { mac := macAt bs 0, node := (byteAt bs 6).toNat, est := signed16 (fieldIn order bs 8 2), age := (byteAt bs 10).toNat }

/-- The fields of a boot record. -/
def recSelected (bs : List Byte) : Byte := byteAt bs 4
def recPrevious (bs : List Byte) : Byte := byteAt bs 5
def recTrial (bs : List Byte) : Byte := byteAt bs 6
def recVersionA (bs : List Byte) : Word := BitVec.ofNat 32 (leNat (slice bs 8 4))
def recVersionB (bs : List Byte) : Word := BitVec.ofNat 32 (leNat (slice bs 12 4))

/-- The ASCII bytes "W26B". -/
def recMagic : List Byte := [0x57#8, 0x32#8, 0x36#8, 0x42#8]

/-- A bank as coded in the record: 0 is A, 1 is B. -/
def bankOf (b : Byte) : Option Bank := if b = 0 then some .a else if b = 1 then some .b else none

/-- The first failing check of R144, in its order; none when the record is well formed. -/
def recordFault (bs : List Byte) : Option RecordFault :=
  if slice bs 0 4 ≠ recMagic then some .magic
  else if leNat (slice bs 28 4) ≠ (crc32 (slice bs 0 28)).toNat then some .crc
  else if (bankOf (recSelected bs)).isNone || (bankOf (recPrevious bs)).isNone then some .bank
  else if recTrial bs ≠ 0 ∧ recTrial bs ≠ 1 then some .trial
  else none

/-- The record's version of a bank. -/
def recVersion (bs : List Byte) (bank : Bank) : Word :=
  match bank with
  | .a => recVersionA bs
  | .b => recVersionB bs

end Sys2Proof.Machine
end

