-- ==== Sys2Proof/Machine/Reports.lean ====
section
/-! DEFINITION. The bytes of report records: codes of R161, kind codes of Table 10.7, layout of Table 10.6, sub-codes and payloads of
Table 10.11; and the 8 bytes of a hold reference (Table 10.9). -/

namespace Sys2Proof.Machine

open Sys2Proof

/-! ### Codes of enumerated values (R161) -/

def Status.code : Status → Nat
  | .done => 0 | .accepted => 1 | .refusedRange => 2 | .refusedState => 3 | .refusedPending => 4 | .refusedFull => 5
  | .refusedDuplicate => 6 | .refusedOverlap => 7 | .refusedUnknown => 8

def BootCause.code : BootCause → Nat
  | .invalid => 0 | .normal => 1 | .trial => 2

def RecordFault.code : RecordFault → Nat
  | .magic => 1 | .crc => 2 | .bank => 3 | .trial => 4 | .readError => 5

def RecordCause.code : RecordCause → Nat
  | .fault f => f.code
  | .notVerified => 6
  | .versionMismatch => 7

def RefusedRegion.code : RefusedRegion → Nat
  | .bootAlias => 0 | .bankInForce => 1 | .recordSector => 2

def GateCause.code : GateCause → Nat
  | .boundary => 0 | .timeSet => 1 | .evaluate => 2 | .grant => 3 | .gateSet => 4 | .line => 5 | .stationSet => 6

def LineSub.code : LineSub → Nat
  | .asserted => 0 | .released => 1 | .syncForward => 2 | .syncBack => 3

def HandoffOutcome.code : HandoffOutcome → Nat
  | .departed => 0 | .stayed => 1 | .timedOut => 2 | .cleared => 3

def VerifyResult.code : VerifyResult → Nat
  | .verified => 0 | .mismatch => 1 | .readError => 2 | .interrupted => 3

def Bank.code : Bank → Nat
  | .a => 0 | .b => 1

def StagingState.code : StagingState → Nat
  | .idle => 0 | .receiving => 1 | .complete => 2 | .verifying => 3 | .verified => 4 | .corrupt => 5

def Roam.code : Roam → Nat
  | .settled => 0 | .watch => 1 | .candidate => 2 | .handoff => 3 | .holdoff => 4

def Disposition.code : Disposition → Nat
  | .forward => 0 | .resend => 1 | .discard => 2

def LineMode.code : LineMode → Nat
  | .off => 0 | .pause => 1 | .sync => 2

/-! ### Layouts -/

/-- A flow key in its 13 bytes. -/
def FlowKey.bytes (k : FlowKey) : List Byte :=
  k.proto :: (leBytes 4 k.srcFold.toNat ++ leBytes 4 k.dstFold.toNat ++ leBytes 2 k.srcPort.toNat ++ leBytes 2 k.dstPort.toNat)

/-- One byte of a value. -/
def u8 (n : Nat) : List Byte := leBytes 1 n
def u16 (n : Nat) : List Byte := leBytes 2 n
def u32 (n : Nat) : List Byte := leBytes 4 n

/-- Kind code, sub-code and the value of bytes 2-3 (Tables 10.6, 10.7, 10.11). -/
def Report.header : Report → Nat × Nat × Nat
  | .completion status tag _ _ => (0x01, status.code, tag)
  | .cmdIgnored _ _ _ => (0x02, 0, 0xFFFF)
  | .lost _ => (0x03, 0, 0xFFFF)
  | .statsWritten fault _ _ => (0x04, fault.toNat, 0xFFFF)
  | .bootStatus cause _ _ _ _ _ _ => (0x05, cause.code, 0xFFFF)
  | .writeRefused region _ _ _ => (0x06, region.code, 0xFFFF)
  | .recordRefused cause _ _ _ _ => (0x07, cause.code, 0xFFFF)
  | .confirmed _ _ => (0x08, 0, 0xFFFF)
  | .unknownStation _ _ _ => (0x09, 0, 0xFFFF)
  | .gateChange cause station _ _ => (0x0A, cause.code, station.val)
  | .allowanceLow station _ _ _ _ => (0x0B, 0, station.val)
  | .commitApplied _ => (0x0C, 0, 0xFFFF)
  | .lineEvent sub _ => (0x0D, sub.code, 0xFFFF)
  | .flowDemoted _ station _ _ _ _ => (0x0E, 0, match station with | some i => i.val | none => 0xFFFF)
  | .pacingApplied _ => (0x0F, 0, 0xFFFF)
  | .capApplied _ _ => (0x0F, 1, 0xFFFF)
  | .signalCross rising station _ _ _ _ => (0x10, rising.toNat, station.val)
  | .handoffCandidate station _ _ _ _ _ _ => (0x11, 0, station.val)
  | .candidateExpired station _ _ => (0x12, 0, station.val)
  | .candidateWithdrawn station _ _ => (0x13, 0, station.val)
  | .holdRelease outcome station _ _ _ _ _ _ _ => (0x14, outcome.code, station.val)
  | .stageComplete _ _ _ => (0x15, 0, 0xFFFF)
  | .verifyResult result _ _ _ _ _ => (0x16, result.code, 0xFFFF)
  | .activationDue _ _ _ _ => (0x17, 0, 0xFFFF)

/-- The payload from byte 8 (Table 10.11). -/
def Report.payload : Report → List Byte
  | .completion _ _ kind result => kind :: result
  | .cmdIgnored offset len id => u16 offset ++ u16 len ++ u16 id.toNat
  | .lost count => u16 count
  | .statsWritten _ sec bytes => u8 sec ++ u16 bytes
  | .bootStatus _ bank trial reverted fault vA vB =>
    u8 bank.code ++ u8 trial ++ u8 reverted.toNat ++ u8 (match fault with | some f => f.code | none => 0) ++ u32 vA.toNat ++ u32 vB.toNat
  | .writeRefused _ addr len id => u32 addr.toNat ++ u16 len ++ u16 id.toNat
  | .recordRefused _ selected version state staging => selected :: (u32 version.toNat ++ u8 state.code ++ u32 staging.toNat)
  | .confirmed bank version => u8 bank.code ++ u32 version.toNat
  | .unknownStation mac slot raw => macBytes mac ++ u8 slot.val ++ [raw]
  | .gateChange _ _ closed reasons => u8 closed.toNat ++ u8 reasons.code
  | .allowanceLow _ used extra limit remaining => u16 used ++ u8 extra ++ u16 limit ++ u16 remaining
  | .commitApplied mask => u16 mask.toNat
  | .lineEvent _ value => u8 value
  | .flowDemoted entry _ key allowance overCount count => u8 entry.val ++ key.bytes ++ u16 allowance ++ u8 overCount ++ u32 count
  | .pacingApplied p => u8 p.period ++ u8 p.threshold ++ u8 p.idleTimeout
  | .capApplied slot cap => u8 slot.val ++ u16 cap
  | .signalCross _ _ mac est sample weak => macBytes mac ++ leInt 2 est ++ leInt 1 sample ++ leInt 2 weak
  | .handoffCandidate _ mac est peer node margin urgent =>
    macBytes mac ++ leInt 2 est ++ leInt 2 peer ++ u8 node ++ leInt 2 margin ++ u8 urgent.toNat
  | .candidateExpired _ mac est => macBytes mac ++ leInt 2 (est.getD 0)
  | .candidateWithdrawn _ mac est => macBytes mac ++ leInt 2 est
  | .holdRelease _ _ tag held overflow slot fault start requests =>
    u16 tag.toNat ++ u8 held ++ u16 overflow ++ u8 slot.val ++ u8 fault.toNat ++ u32 start ++ u8 requests
  | .stageComplete length version chunks => u32 length ++ u32 version.toNat ++ u16 chunks
  | .verifyResult _ crc expected version offset image =>
    u32 crc.toNat ++ u32 expected.toNat ++ u32 version.toNat ++ u32 offset ++ u32 image
  | .activationDue bank version minute uptime => u8 bank.code ++ u32 version.toNat ++ u16 minute ++ u32 uptime

/-- The first `n` bytes, 0 where there are none. -/
def padTo (n : Nat) (bs : List Byte) : List Byte := (bs ++ List.replicate n 0).take n

/-- The 32 bytes of a report record (Table 10.6); unused payload bytes are 0. -/
def Waiting.bytes (w : Waiting) : List Byte :=
  let h := w.report.header
  u8 h.1 ++ u8 h.2.1 ++ u16 h.2.2 ++ u32 w.uptime ++ padTo 24 w.report.payload

/-- The 8 bytes of a hold reference with its disposition (Table 10.9). -/
def refBytes (r : HoldRef × Disposition) : List Byte :=
  u32 r.1.addr ++ u16 r.1.length ++ u8 (r.1.slot.val + 16 * r.2.code) ++ u8 r.1.arrival

end Sys2Proof.Machine
end

