-- ==== Sys2Proof/Machine/Ops.lean ====
section
/-! DEFINITION. The shared operations: indexed state, uptime, lookups of the Window Decoder and the Station Table, the lists of the
Path Unit, own writes, reports (R162, R163), the completion of commands (R159, R160) and the free values. -/

namespace Sys2Proof.Machine

open Sys2Proof

/-- The answer of a step. -/
abbrev Answer := Host.Outcome State Fault Refusal

/-! ### Indexed state -/

/-- One element replaced. -/
def vput {α : Type} {n : Nat} (v : Vector α n) (i : Fin n) (x : α) : Vector α n := v.set i.val x i.isLt

/-- One element changed by a function. -/
def vmod {α : Type} {n : Nat} (v : Vector α n) (i : Fin n) (f : α → α) : Vector α n := vput v i (f v[i])

/-- Every element changed by a function. -/
def vmap {α β : Type} {n : Nat} (f : α → β) (v : Vector α n) : Vector β n := ⟨(v.toList.map f).toArray, by simp⟩

/-- The first index whose element satisfies a test. -/
def vfind {α : Type} {n : Nat} (p : α → Bool) (v : Vector α n) : Option (Fin n) := (List.finRange n).find? (fun i => p v[i])

/-- How many elements satisfy a test. -/
def vcount {α : Type} {n : Nat} (p : α → Bool) (v : Vector α n) : Nat := v.toList.countP p

/-! ### Uptime -/

/-- The current uptime second. -/
def State.now (s : State) : Nat := s.time.secs

/-- An uptime second `t` seconds on, in 32 bits (log 21). -/
def State.after (s : State) (t : Nat) : Nat := (s.time.secs + t) % 4294967296

/-! ### Free values (log 16) -/

/-- The free value in force. -/
def State.freeNow (s : State) : Word := Config.freeWord s.free

/-- The next use takes another free value. -/
def spendFree (s : State) : State := { s with free := s.free + 1 }

/-! ### IRQ -/

/-- IRQ is driven high while H differs from T (R164). -/
def State.irq (s : State) : Bool := s.cmd.head != s.cmd.tail

/-! ### Window lookup (R1) -/

/-- An enabled slot whose window contains an address (R9). -/
def WindowRec.contains (r : WindowRec) (addr : Nat) : Bool :=
  r.kind != .off && decide (r.base ≤ addr) && decide (addr < r.base + r.size)

/-- The profile a window record references. -/
def layoutOf (w : Windows) (r : WindowRec) : Layout :=
  match r.kind with
  | .txRing => .desc w.desc[r.profile]
  | .rxStatus => .status w.status[r.profile]
  | _ => .plain

/-- The lookup of R1: the slot that contains the address, with copies of its record and of the profile the record references. -/
def lookupWindow (w : Windows) (addr : Nat) : Option WinCopy :=
  (vfind (fun r => r.contains addr) w.slots).map fun i => { slot := i, record := w.slots[i], layout := layoutOf w w.slots[i] }

/-- Base of the control window. -/
def State.control (s : State) : Nat := (s.win.slots[(0 : Fin 16)]).base

/-! ### Banks (R142) -/

def Bank.base : Bank → Nat
  | .a => Config.bankABase
  | .b => Config.bankBBase

/-- The bank that is not in force. -/
def Bank.other : Bank → Bank
  | .a => .b
  | .b => .a

def inRange (base size addr : Nat) : Bool := decide (base ≤ addr) && decide (addr < base + size)

/-- The boot record sector (Table 0.2). -/
def inSector (addr : Nat) : Bool := inRange Config.sectorBase Config.sectorSize addr

/-! ### The visit of an uptime second (R125) -/

/-- The visit of the uptime second just counted is still to be taken (log 5). -/
def visiting (s : State) : Bool := s.time.visitDue

/-! ### Stations (R28) -/

/-- The lookup of a MAC: never made for a group address, which is a miss. -/
def findStation (t : StationTable) (m : Mac) : Option (Fin 128) :=
  if isGroup m then none else vfind (fun o => o.any fun st => st.mac == m) t.stations

/-- A station record written. -/
def putStation (i : Fin 128) (o : Option Station) (s : State) : State :=
  { s with sta := { s.sta with stations := vput s.sta.stations i o } }

/-- An installed station record changed; an empty record stays empty. -/
def modStation (i : Fin 128) (f : Station → Station) (s : State) : State :=
  { s with sta := { s.sta with stations := vmod s.sta.stations i (Option.map f) } }

/-- Every installed station record changed. -/
def mapStations (f : Station → Station) (s : State) : State :=
  { s with sta := { s.sta with stations := vmap (Option.map f) s.sta.stations } }

/-- The installed stations in ascending index, each giving at most one value. -/
def stationList {α : Type} (v : Vector (Option Station) 128) (g : Fin 128 → Station → Option α) : List α :=
  (List.finRange 128).filterMap fun i => v[i].bind (g i)

/-! ### Transactions inside the part -/

/-- The write named by a tag. -/
def findWrite (p : PathUnit) (tag : Nat) : Option WriteTx := p.writes.find? fun w => w.tag == tag

/-- The write named by a tag, changed. -/
def modWrite (tag : Nat) (f : WriteTx → WriteTx) (s : State) : State :=
  { s with path := { s.path with writes := s.path.writes.map fun w => if w.tag = tag then f w else w } }

/-- How many writes the lists of R4 hold, with the places kept for writes whose reception decides whether they are entered (log 10). -/
def listedCount (p : PathUnit) : Nat := p.writes.countP fun w => w.listed || w.reserved

/-- A write that has arrived, has not left downstream and is not refused. -/
def WriteTx.inside (w : WriteTx) : Bool :=
  match w.stage with
  | .arriving | .held | .ready => true
  | .issued | .answered _ | .refused _ => false

def WriteTx.isRefused (w : WriteTx) : Bool :=
  match w.stage with
  | .refused _ => true
  | .arriving | .held | .ready | .issued | .answered _ => false

/-- The record size that a window copy divides its window into, with the range that is divided: descriptors, status records, commands
(R8). None where no write can be held. -/
def heldRecords (c : WinCopy) : Option (Nat × Nat × Nat) :=
  match c.record.kind with
  | .txRing =>
    match c.layout with
    | .desc p => some (c.record.base, c.record.size, p.size)
    | .plain => none
    | .status _ => none
  | .rxStatus =>
    match c.layout with
    | .status p => some (c.record.base, c.record.size, p.size)
    | .plain => none
    | .desc _ => none
  | .control => some (c.record.base, Config.commandAreaSize, 32)
  | .off => none
  | .frameBuffer => none
  | .peer => none
  | .bootAlias => none

/-- The shape of the address phase allows one of the four held writes of Table 1.2 (log 10). -/
def mayHold (win : Option WinCopy) (a : TxnAddr) : Bool :=
  inSector a.addr.toNat ||
    (match win.bind heldRecords with
     | none => false
     | some (base, size, rec) => shapeComplete base size rec a)

/-- The write's data beats are awaited, and they may show that it needs a decision (log 10). -/
def WriteTx.undecided (w : WriteTx) : Bool := w.stage == .arriving && mayHold w.win w.txn

/-- One write settled, given the older writes of its ID (R4, R6). A place kept becomes an entry behind an older write in the list, and is
given up when no older write is in the list and neither this write nor an older one is undecided (log 10). A refused write leaves the list
of its ID when it is the oldest in it (Table 1.4; log 11). -/
def settleWrite (ahead : List WriteTx) (w : WriteTx) : WriteTx :=
  if w.reserved then
    if ahead.any WriteTx.listed then { w with listed := true, reserved := false }
    else { w with reserved := w.undecided || ahead.any WriteTx.reserved }
  else if w.listed && w.isRefused && !ahead.any WriteTx.listed then { w with listed := false }
  else w

/-- The writes settled from the oldest on. `older` is the part of the arrival order already settled, newest first. -/
def settleFrom (older : List WriteTx) : List WriteTx → List WriteTx
  | [] => []
  | w :: ws =>
    let w' := settleWrite (older.filter fun o => o.txn.id == w.txn.id) w
    w' :: settleFrom (w' :: older) ws

/-- Writes enter and leave the lists as R4 and R6 say. -/
def settleLists (s : State) : State := { s with path := { s.path with writes := settleFrom [] s.path.writes } }

/-- A write becomes ready for the write side, after those that became ready before it (R14). -/
def release (tag : Nat) (s : State) : State :=
  let s := modWrite tag (fun w => { w with stage := .ready }) s
  { s with path := { s.path with ready := s.path.ready ++ [tag] } }

/-- A write is refused: its data beats are accepted and discarded, and its SLVERR is owed (R6). -/
def refuseWrite (tag : Nat) (s : State) : State :=
  settleLists (modWrite tag (fun w => { w with stage := .refused true, data := [] }) s)

/-- A write is held for its owner (R3), in the list of its ID (R4). -/
def hold (tag : Nat) (s : State) : State :=
  settleLists (modWrite tag (fun w => { w with stage := .held, listed := true, reserved := false }) s)

/-! ### The two ports -/

/-- Something leaves on a port. -/
def emit (e : PortEvent) (s : State) : State := { s with ports := s.ports ++ [e] }

/-- An own write requests the write side (R14). -/
def request (w : OwnWrite) (s : State) : State := { s with own := { s.own with requests := s.own.requests ++ [w] } }

/-! ### Reports (R162, R163) -/

/-- The free space of R162. -/
def freeSpace (c : CommandUnit) : Nat := 255 - (c.head + 256 - c.tail) % 256 - c.waiting.length

/-- The condition under which a report is appended (R162). -/
def room (c : CommandUnit) : Bool := decide (1 ≤ freeSpace c) && decide (c.waiting.length < Config.waitingLimit)

/-- The oldest waiting report requests its own write at slot H (R163). -/
def requestReport (w : Waiting) (s : State) : State :=
  request { kind := .report, addr := s.control + Config.ringOffset + s.cmd.head * 32, data := w.bytes } s

/-- A report joins the waiting list; as the only one it is the next to be written. -/
def appendReport (r : Report) (s : State) : State :=
  let w : Waiting := { report := r, uptime := s.now }
  let s' := { s with cmd := { s.cmd with waiting := s.cmd.waiting ++ [w] } }
  if s.cmd.waiting.isEmpty then requestReport w s' else s'

/-- Step 1 of R162: the LOST record. -/
def offerLost (s : State) : State :=
  if 0 < s.cmd.lost ∧ room s.cmd then
    let s' := appendReport (.lost s.cmd.lost) s
    { s' with cmd := { s'.cmd with lost := 0 } }
  else s

/-- A produced report is offered to the Command Unit (R162). -/
def offer (r : Report) (s : State) : State :=
  let s := offerLost s
  if room s.cmd then appendReport r s else { s with cmd := { s.cmd with lost := satInc 65535 s.cmd.lost } }

/-- Reports offered in order. -/
def offerAll (rs : List Report) (s : State) : State := rs.foldl (fun s r => offer r s) s

/-- The part writes the head word (R163). -/
def requestHead (s : State) : State :=
  request { kind := .head, addr := s.control + Config.headOffset, data := leBytes 4 s.cmd.head } s

/-! ### Commands (R159, R160) -/

/-- A command write is captured as the newest entry of the Command Queue (R158). -/
def capture (bytes : List Byte) (s : State) : State := { s with cmd := { s.cmd with queue := s.cmd.queue ++ [bytes] } }

/-- The oldest held command write is captured into the freed place and then forwarded (R159). -/
def captureHeld (s : State) : State :=
  match s.cmd.held with
  | [] => s
  | tag :: rest =>
    if s.cmd.queue.length < Config.queueLimit then
      match findWrite s.path tag with
      | none => { s with cmd := { s.cmd with held := rest } }
      | some w => release tag (capture (laneBytes w.data) { s with cmd := { s.cmd with held := rest } })
    else s

/-- The Command Unit produces the COMPLETION of the oldest command, removes its entry, and is free for the next (R160). A result is
written only with status DONE. -/
def completeCommand (status : Status) (result : List Byte) (s : State) : State :=
  match s.cmd.queue with
  | [] => s
  | c :: _ =>
    let s := offer (.completion status (leNat (slice c 2 2)) (byteAt c 0) (if status = .done then result else [])) s
    captureHeld { s with cmd := { s.cmd with queue := s.cmd.queue.tail, executing := .idle } }

/-- The oldest command, when no command is in execution and its kind code is `code` (R160). -/
def nextCommand (code : Nat) (s : State) : Option (List Byte) :=
  match s.cmd.executing, s.cmd.queue with
  | .idle, c :: _ => if (byteAt c 0).toNat = code then some c else none
  | _, _ => none

/-- The Command Unit executes the oldest command when it is the one named: a flags byte other than 0 completes REFUSED_RANGE,
otherwise the owner gets the parameters (R160). With another command, or none, at the front the event has no occasion (log 1), and no
command is taken while the visit of an uptime second is due (R128, log 5). -/
def runCommand (code : Nat) (owner : List Byte → State → State) (s : State) : State :=
  match if visiting s then none else nextCommand code s with
  | none => s
  | some c => if byteAt c 1 ≠ 0 then completeCommand .refusedRange [] s else owner (c.drop 4) s

/-- What an owner answers when its command ends at once. -/
structure Done where
  state  : State
  status : Status
  result : List Byte

/-- A command that changes nothing and completes with a status. -/
def refuse (status : Status) (s : State) : Done := { state := s, status := status, result := [] }

/-- A command completed with no result value. -/
def done (s : State) : Done := { state := s, status := .done, result := [] }

/-- An owner whose command ends at once, followed by its COMPLETION. -/
def atOnce (f : List Byte → State → Done) (p : List Byte) (s : State) : State :=
  let d := f p s
  completeCommand d.status d.result d.state

end Sys2Proof.Machine
end

