-- ==== Sys2Proof/Machine/Image.lean ====
section
/-! DEFINITION. The Image Unit: regions and refusals (R143), the boot record check (R146, R147), the staging context (R148 to R150), the
verification sweep (R151 to R153) and the commands STAGE_BEGIN, STAGE_CANCEL, STAGE_VERIFY and ACTIVATION_SET. -/

namespace Sys2Proof.Machine

open Sys2Proof

/-! ### Regions -/

/-- A write refused on its address alone: into the boot alias or the bank in force (Table 9.1). -/
def refusedRegion (bank : Bank) (addr : Nat) : Option RefusedRegion :=
  if inRange Config.aliasBase Config.bankSize addr then some .bootAlias
  else if inRange bank.base Config.bankSize addr then some .bankInForce
  else none

/-- Complete for the 32-byte record at 0x1FFF_0000 (R143). -/
def recordComplete (t : TxnAddr) (d : List Lane) : Bool := complete Config.sectorBase Config.recordSize Config.recordSize t d

/-- A write into the staging bank (R149). -/
def inStaging (img : ImageUnit) (addr : Nat) : Bool :=
  img.staging.state != .idle && img.staging.bank.any fun k => inRange k.base Config.bankSize addr

/-- Each refusal is reported and counted (R143). -/
def reportRefusal (region : RefusedRegion) (t : TxnAddr) (s : State) : State :=
  offer (.writeRefused region t.addr t.len t.id) { s with img := { s.img with refusedWrites := satInc count32 s.img.refusedWrites } }

/-- The downstream address of a read (R2, R142). -/
def readAddress (bank : Bank) (addr : Nat) : Nat :=
  if inRange Config.aliasBase Config.bankSize addr then bank.base + (addr - Config.aliasBase) else addr

/-- The version of the bank in force in the record copy, 0 when there is none (R145). -/
def versionInForce (img : ImageUnit) : Word :=
  match img.record with
  | none => 0
  | some bs => recVersion bs img.bank

/-! ### The record check -/

/-- The checks of R146 in their order. -/
def recordCause (img : ImageUnit) (bs : List Byte) : Option RecordCause :=
  match recordFault bs, bankOf (recSelected bs) with
  | some f, _ => some (.fault f)
  | none, none => some (.fault .bank)
  | none, some k =>
    if k = img.bank then none
    else if img.staging.state ≠ .verified then some .notVerified
    else if recVersion bs k ≠ img.staging.version then some .versionMismatch
    else none

/-- The written version of the written selected bank; a free value when the byte names no bank (log 16). -/
def writtenVersion (bs : List Byte) (s : State) : Word × State :=
  match bankOf (recSelected bs) with
  | some k => (recVersion bs k, s)
  | none => (s.freeNow, spendFree s)

/-- A record write that fails is refused and reported (R146). -/
def refuseRecord (tag : Nat) (cause : RecordCause) (bs : List Byte) (s : State) : State :=
  let v := writtenVersion bs s
  let s := v.2
  let s := { s with img := { s.img with refusedRecords := satInc count32 s.img.refusedRecords } }
  offer (.recordRefused cause (recSelected bs) v.1 s.img.staging.state s.img.staging.version) (refuseWrite tag s)

/-- A record write that passes is forwarded and replaces the record copy; one that confirms the bank in force is reported (R147). -/
def acceptRecord (tag : Nat) (bs : List Byte) (s : State) : State :=
  let s := release tag { s with img := { s.img with record := some bs } }
  if bankOf (recSelected bs) = some s.img.bank ∧ recTrial bs = 0 then
    offer (.confirmed s.img.bank (recVersion bs s.img.bank)) { s with img := { s.img with trial := 0 } }
  else s

/-- BOOT_RECORD_CHECK: the oldest held record write is checked (R146, R147). -/
def bootRecordCheck (s : State) : State :=
  match s.img.checks with
  | [] => s
  | tag :: rest =>
    let s := { s with img := { s.img with checks := rest } }
    match findWrite s.path tag with
    | none => s
    | some w =>
      match recordCause s.img (laneBytes w.data) with
      | some cause => refuseRecord tag cause (laneBytes w.data) s
      | none => acceptRecord tag (laneBytes w.data) s

/-! ### Staging -/

/-- The staging context written. -/
def setStaging (g : Staging) (s : State) : State := { s with img := { s.img with staging := g } }

/-- The size of chunk `c` (R149). -/
def chunkSizeOf (g : Staging) (c : Nat) : Nat :=
  if c + 1 = g.chunkCount then g.length - Config.chunkSize * c else Config.chunkSize

/-- The progress a write leaves in its chunk; none when it disorders it (R149 cases 2 to 5). -/
def chunkProgress (k : Chunk) (t : TxnAddr) (d : List Lane) (off : Nat) : Option Nat :=
  if t.burst ≠ .incr ∨ strobesSet d = false then none
  else if off % Config.chunkSize = 0 then some t.len
  else if off % Config.chunkSize = k.progress then some (k.progress + t.len)
  else none

/-- The chunk after a write at image offset `off` (R149). -/
def nextChunk (size : Nat) (k : Chunk) (t : TxnAddr) (d : List Lane) (off : Nat) : Chunk :=
  match chunkProgress k t d off with
  | none => ⟨.disordered, 0⟩
  | some n => ⟨if size ≤ n then .complete else .filling, n⟩

/-- The chunk a write at an image offset lies in: none at or beyond the length (R149 case 1). -/
def chunkIndex (g : Staging) (off : Nat) : Option (Fin 256) :=
  if off < g.length then indexOf 256 (off / Config.chunkSize) else none

/-- The Chunk Map after a tracked write (R149). -/
def trackChunk (g : Staging) (t : TxnAddr) (d : List Lane) (off : Nat) : Staging :=
  match chunkIndex g off with
  | none => g
  | some c => { g with chunks := vmod g.chunks c fun k => nextChunk (chunkSizeOf g c.val) k t d off }

/-- All n chunks are COMPLETE (R150). -/
def allComplete (g : Staging) : Bool := (g.chunks.toList.take g.chunkCount).all fun k => decide (k.state = .complete)

/-- Entry into COMPLETE, reported each time (R150). -/
def enterComplete (s : State) : State :=
  let g := { s.img.staging with state := .complete }
  offer (.stageComplete g.length g.version g.chunkCount) (setStaging g s)

/-- A staging state that leaves its image unfinished. -/
def enterReceiving (s : State) : State := setStaging { s.img.staging with state := .receiving } s

/-- COMPLETE when all chunks are, RECEIVING otherwise (R150, R153). -/
def completeOrReceiving (s : State) : State := if allComplete s.img.staging then enterComplete s else enterReceiving s

/-- A sweep ends: W becomes 0, and the data of a read already issued is discarded when it returns (R15, R153). -/
def endSweep (s : State) : State :=
  let stale :=
    match s.img.staging.sweep with
    | some { step := .reading tag, .. } => s.img.staging.stale ++ [tag]
    | _ => s.img.staging.stale
  { setStaging { s.img.staging with sweep := none, stale := stale } s with path := { s.path with sweepWait := 0 } }

/-- The read offset a sweep has reached. -/
def sweepOffset (g : Staging) : Nat :=
  match g.sweep with
  | none => 0
  | some w => w.offset

/-- A write into the staging bank interrupts the sweep (R153). The computed CRC of the report is not stated: a free value
(log 16). -/
def interruptSweep (imageOffset : Nat) (s : State) : State :=
  let g := s.img.staging
  let s := endSweep s
  completeOrReceiving
    (offer (.verifyResult .interrupted s.freeNow g.expectedCrc g.version (sweepOffset g) imageOffset) (spendFree s))

/-- The staging state follows the Chunk Map after a tracked write (R150). -/
def followMap (imageOffset : Nat) (s : State) : State :=
  match s.img.staging.state with
  | .idle => s
  | .receiving => if allComplete s.img.staging then enterComplete s else s
  | .complete => if allComplete s.img.staging then s else enterReceiving s
  | .corrupt => if allComplete s.img.staging then s else enterReceiving s
  | .verified => completeOrReceiving s
  | .verifying => interruptSweep imageOffset s

/-- A write received into the staging bank is tracked (R149, R150). -/
def trackWrite (t : TxnAddr) (d : List Lane) (s : State) : State :=
  match s.img.staging.bank with
  | none => s
  | some k =>
    let off := t.addr.toNat - k.base
    let s :=
      if off < s.img.staging.length then setStaging (trackChunk s.img.staging t d off) s
      else { s with img := { s.img with outside := satInc count32 s.img.outside } }
    followMap off s

/-! ### The sweep -/

/-- A write into the staging bank that is received and not yet answered (R151). -/
def stagingUnanswered (bank : Bank) (w : WriteTx) : Bool :=
  inRange bank.base Config.bankSize w.txn.addr.toNat && (decide (w.stage = .ready) || decide (w.stage = .issued))

/-- The writes the sweep waits for have all had their responses (R151). -/
def writesAnswered (p : PathUnit) (tags : List Nat) : Bool :=
  p.writes.all fun w => !(tags.contains w.tag && (decide (w.stage = .ready) || decide (w.stage = .issued)))

/-- The sweep written. -/
def setSweep (w : Sweep) (s : State) : State := setStaging { s.img.staging with sweep := some w } s

/-- SWEEP_START: the sweep requests its first read (R151, R152). It does not wait for the return of a read of an ended sweep, whose data
is discarded (R153): DESIGN CHOICE (log 32), unsafe. -/
def sweepStart (s : State) : State :=
  match s.img.staging.sweep with
  | none => s
  | some w => if w.step = .awaiting ∧ writesAnswered s.path w.writes then setSweep { w with step := .waiting } s else s

/-- A sweep ends with a result: the state, W, and VERIFY_RESULT (R152). -/
def finishSweep (result : VerifyResult) (state : StagingState) (crc : Word) (offset : Nat) (s : State) : State :=
  let g := s.img.staging
  let s := setStaging { g with state := state, sweep := none } { s with path := { s.path with sweepWait := 0 } }
  offer (.verifyResult result crc g.expectedCrc g.version offset 0) s

/-- A read of the current sweep has returned (R152). -/
def sweepData (w : Sweep) (resps : List Resp) (data : List Byte) (s : State) : State :=
  let g := s.img.staging
  if resps.all fun r => r == .okay then
    let crc := crcBytes w.crc ((data.take Config.sweepRead).take (g.length - w.offset))
    let offset := w.offset + Config.sweepRead
    if g.length ≤ offset then
      if crcResult crc = g.expectedCrc then
        finishSweep .verified .verified (crcResult crc) offset { s with img := { s.img with dueSent := false } }
      else finishSweep .mismatch .corrupt (crcResult crc) offset s
    else setSweep { w with crc := crc, offset := offset, step := .waiting } s
  else finishSweep .readError .corrupt (crcResult w.crc) w.offset s

/-- SWEEP_READ_RETURN (R152, R153). -/
def sweepReadReturn (tag : Nat) (resps : List Resp) (data : List Byte) (s : State) : State :=
  if s.img.staging.stale.contains tag then
    setStaging { s.img.staging with stale := s.img.staging.stale.filter fun t => t != tag } s
  else
    match s.img.staging.sweep with
    | none => s
    | some w => if w.step = .reading tag then sweepData w resps data s else s

/-! ### Commands -/

/-- STAGE_BEGIN (R148). -/
def stageBegin (p : List Byte) (s : State) : Done :=
  let length := param4 p 0
  let version : Word := BitVec.ofNat 32 (param4 p 8)
  let g := s.img.staging
  match flagOf (param1 p 12) with
  | none => refuse .refusedRange s
  | some downgrade =>
    if length < 1 ∨ Config.bankSize < length then refuse .refusedRange s
    else if g.state = .receiving ∨ g.state = .complete ∨ g.state = .verifying then refuse .refusedState s
    else if downgrade = false ∧ version ≤ versionInForce s.img then refuse .refusedRange s
    else
      done (setStaging
        { g with state := .receiving, bank := some s.img.bank.other, length := length, expectedCrc := BitVec.ofNat 32 (param4 p 4),
                 version := version, chunkCount := (length + Config.chunkSize - 1) / Config.chunkSize,
                 chunks := Vector.replicate 256 ⟨.empty, 0⟩, sweep := none } s)

/-- STAGE_CANCEL (R153). -/
def stageCancel (_p : List Byte) (s : State) : Done :=
  if s.img.staging.state = .idle then refuse .refusedState s
  else
    let s := endSweep s
    done (setStaging { s.img.staging with state := .idle, bank := none, chunks := Vector.replicate 256 ⟨.empty, 0⟩ } s)

/-- STAGE_VERIFY (R151). -/
def stageVerify (p : List Byte) (s : State) : Done :=
  match flagOf (param1 p 1) with
  | none => refuse .refusedRange s
  | some yields =>
    if param1 p 0 < 2 ∨ 64 < param1 p 0 then refuse .refusedRange s
    else if s.img.staging.state = .complete ∨ s.img.staging.state = .corrupt then
      let bank := match s.img.staging.bank with | some k => k | none => s.img.bank.other
      let tags := (s.path.writes.filter (stagingUnanswered bank)).map WriteTx.tag
      { state := setStaging { s.img.staging with
                                state := .verifying,
                                sweep := some { share := param1 p 0, yields := yields, offset := 0, crc := crcStart, writes := tags,
                                                step := .awaiting } } s,
        status := .accepted, result := [] }
    else refuse .refusedState s

/-- ACTIVATION_SET (R154). -/
def activationSet (p : List Byte) (s : State) : Done :=
  match flagOf (param1 p 0), daysOf (param1 p 1) with
  | none, _ => refuse .refusedRange s
  | some true, _ => done { s with img := { s.img with window := { s.img.window with enabled := false } } }
  | some false, none => refuse .refusedRange s
  | some false, some days =>
    let w : ActWindow := { enabled := true, days := days, start := param2 p 2, stop := param2 p 4, quiet := param2 p 6 }
    if w.start ≤ 1439 ∧ 1 ≤ w.stop ∧ w.stop ≤ 1440 ∧ w.start < w.stop ∧ 10 ≤ w.quiet ∧ w.quiet ≤ 600 then
      done { s with img := { s.img with window := w } }
    else refuse .refusedRange s

/-- BOOT_RECORD_CHECK. -/
def execBootRecordCheck (s : State) : Answer := .next (bootRecordCheck s)

/-- SWEEP_START. -/
def execSweepStart (s : State) : Answer := .next (sweepStart s)

/-- SWEEP_READ_RETURN. -/
def execSweepReadReturn (tag : Nat) (resps : List Resp) (data : List Byte) (s : State) : Answer := .next (sweepReadReturn tag resps data s)

/-- STAGE_BEGIN, code 0x1C. -/
def execStageBegin (s : State) : Answer := .next (runCommand 0x1C (atOnce stageBegin) s)

/-- STAGE_CANCEL, code 0x1D. -/
def execStageCancel (s : State) : Answer := .next (runCommand 0x1D (atOnce stageCancel) s)

/-- STAGE_VERIFY, code 0x1E. -/
def execStageVerify (s : State) : Answer := .next (runCommand 0x1E (atOnce stageVerify) s)

/-- ACTIVATION_SET, code 0x1F. -/
def execActivationSet (s : State) : Answer := .next (runCommand 0x1F (atOnce activationSet) s)

end Sys2Proof.Machine
end

