-- ==== Sys2Proof/Machine/Classifier.lean ====
section
/-! DEFINITION. The Classifier: the Match List (R66 to R69), flow keys and the Flow Table (R70 to R75), aging (R76), the removals of
STATION_CLEAR (R77) and the flow commands (R78 to R80). -/

namespace Sys2Proof.Machine

open Sys2Proof

/-! ### Conditions and rules -/

/-- A comparison of a present value (Table 4.2). -/
def Cond.test (c : Cond) (v : Nat) : Bool :=
  (c.less && decide (v < c.ref)) || (c.equal && decide (v = c.ref)) || (c.greater && decide (c.ref < v))

/-- A comparison of a field that may be absent: an absent field is false (R67). -/
def Cond.testOpt (c : Cond) (v : Option Nat) : Bool := v.any c.test

/-- An empty comparison set disables the condition (Table 4.1). -/
def Cond.enabled (c : Cond) : Bool := c.less || c.equal || c.greater

/-- A condition evaluated for a descriptor of a length against a capture (R67, Table 4.3). -/
def Cond.holds (c : Cond) (cap : Capture) (len : Nat) : Bool :=
  match c.field with
  | .dstPort => c.testOpt (cap.dstPort.map BitVec.toNat)
  | .srcPort => c.testOpt (cap.srcPort.map BitVec.toNat)
  | .anyPort => c.testOpt (cap.srcPort.map BitVec.toNat) || c.testOpt (cap.dstPort.map BitVec.toNat)
  | .protocol => c.testOpt (cap.proto.map BitVec.toNat)
  | .dscp => c.testOpt (cap.dscp.map BitVec.toNat)
  | .length => c.test len

/-- A rule matches when every enabled condition is true (R68). -/
def Rule.matches (r : Rule) (cap : Capture) (len : Nat) : Bool :=
  (!r.c0.enabled || r.c0.holds cap len) && (!r.c1.enabled || r.c1.holds cap len)

/-- The slot that decides a new flow: the lowest whose rule matches (R68). -/
def decidingSlot (rules : Vector (Option Rule) 32) (cap : Capture) (len : Nat) : Option (Fin 32) :=
  vfind (fun o => o.any fun r => r.matches cap len) rules

/-- The class and allowance the Match List gives: those of the deciding rule, else NORMAL with allowance 0 (R68). -/
def matchList (rules : Vector (Option Rule) 32) (cap : Capture) (len : Nat) : Class × Nat :=
  match decidingSlot rules cap len with
  | none => (.normal, 0)
  | some i =>
    match rules[i] with
    | none => (.normal, 0)
    | some r => (r.cls, r.allowance)

/-- The decision count of the deciding slot, or the default count, increases (R68). The default count, to which R68 gives no range of its
own, saturates as the slots' counts do: DESIGN CHOICE (log 20), unsafe. -/
def countDecision (slot : Option (Fin 32)) (c : Classifier) : Classifier :=
  match slot with
  | none => { c with defaultCount := satInc count32 c.defaultCount }
  | some i => { c with decisions := vmod c.decisions i (satInc count32) }

/-! ### The Flow Table -/

/-- The flow key of a capture: absent parts are 0 (R70). -/
def Capture.flowKey (cap : Capture) : FlowKey :=
  { proto := cap.proto.getD 0, srcFold := cap.srcFold.getD 0, dstFold := cap.dstFold.getD 0, srcPort := cap.srcPort.getD 0,
    dstPort := cap.dstPort.getD 0 }

/-- The entry that holds a key (R71). -/
def findFlow (flows : Vector (Option Flow) 256) (k : FlowKey) : Option (Fin 256) :=
  vfind (fun o => o.any fun e => e.key == k) flows

/-- The lowest free entry. -/
def freeFlow (flows : Vector (Option Flow) 256) : Option (Fin 256) := vfind Option.isNone flows

/-- `i` is a better victim than `best`: an older last-seen; the lower index is met first and kept on a tie (R75). -/
def betterVictim (flows : Vector (Option Flow) 256) (best : Option (Fin 256)) (i : Fin 256) : Option (Fin 256) :=
  match flows[i] with
  | none => best
  | some e =>
    if e.pinned then best
    else
      match best with
      | none => some i
      | some j => if (flows[j]).any fun f => e.lastSeen < f.lastSeen then some i else best

/-- The unpinned entry with the oldest last-seen, the lowest index among equals (R75). -/
def victim (flows : Vector (Option Flow) 256) : Option (Fin 256) := (List.finRange 256).foldl (betterVictim flows) none

/-- How many entries are pinned, and how many occupied. -/
def pinnedCount (flows : Vector (Option Flow) 256) : Nat := vcount (fun o => o.any Flow.pinned) flows
def occupiedCount (flows : Vector (Option Flow) 256) : Nat := vcount Option.isSome flows

/-- An entry written. -/
def putFlow (i : Fin 256) (e : Option Flow) (c : Classifier) : Classifier := { c with flows := vput c.flows i e }

/-- The index a new entry is created in: the lowest free one, else that of the entry evicted, EVICTED increasing (R74, R75). -/
def placeFor (c : Classifier) : Option (Fin 256 × Classifier) :=
  match freeFlow c.flows with
  | some i => some (i, c)
  | none => (victim c.flows).map fun i => (i, { putFlow i none c with evicted := satInc count32 c.evicted })

/-- The answer to a classification request: class state, allowance, and the entry that holds the flow (R72). -/
structure ClassAnswer where
  cls       : Class
  allowance : Nat
  entry     : Option (Fin 256)

/-- The update of a hit (R73). -/
def hitFlow (now : Nat) (station : Option (Fin 128)) (e : Flow) : Flow :=
  { e with lastSeen := now, count := satInc count32 e.count, station := station }

/-- A learnt entry (Table 4.6). -/
def learntFlow (key : FlowKey) (cls : Class) (allowance : Nat) (now : Nat) (station : Option (Fin 128)) : Flow :=
  { key := key, station := station, cls := cls, allowance := allowance, pinned := false, periodBytes := 0, overFlag := false,
    overCount := 0, lastSeen := now, count := 1 }

/-- The learning of a flow (R74). With every entry pinned there would be no place; at most 64 are (R71). -/
def learn (cap : Capture) (len now : Nat) (station : Option (Fin 128)) (c : Classifier) : ClassAnswer × Classifier :=
  let slot := decidingSlot c.rules cap len
  let m := matchList c.rules cap len
  let c := countDecision slot c
  match placeFor c with
  | none => (⟨m.1, m.2, none⟩, c)
  | some (i, c) =>
    (⟨m.1, m.2, some i⟩, { putFlow i (some (learntFlow cap.flowKey m.1 m.2 now station)) c with learned := satInc count32 c.learned })

/-- A classification request (R72). The station is stored as resolved: the whole disposition is one operation (R99), so its record
is still installed with the MAC it was resolved by (R73). -/
def classify (cap : Option Capture) (len now : Nat) (station : Option (Fin 128)) (c : Classifier) : ClassAnswer × Classifier :=
  match cap with
  | none => (⟨.normal, 0, none⟩, c)
  | some cap =>
    match findFlow c.flows cap.flowKey with
    | none => learn cap len now station c
    | some i =>
      match c.flows[i] with
      | none => (⟨.normal, 0, none⟩, c)
      | some e => (⟨e.cls, e.allowance, some i⟩, putFlow i (some (hitFlow now station e)) c)

/-! ### Removals -/

/-- The entries a test names are freed, and a count of them is answered. -/
def removeFlows (p : Flow → Bool) (c : Classifier) : Nat × Classifier :=
  (vcount (fun o => o.any p) c.flows, { c with flows := vmap (fun o => o.filter fun e => !p e) c.flows })

/-- A count that rises by several, saturating at 2^32 - 1. -/
def satAdd (k n : Nat) : Nat := min (n + k) count32

/-- Aging at an uptime second (R76). -/
def ageFlows (now timeout : Nat) (c : Classifier) : Classifier :=
  let r := removeFlows (fun e => !e.pinned && decide (timeout ≤ now - e.lastSeen)) c
  { r.2 with aged := satAdd r.1 r.2.aged }

/-- FLOW_AGING, the aging of the uptime second just counted (R39, R76). -/
def flowAging (s : State) : State :=
  if s.time.agingDue then
    { s with cls := ageFlows s.now s.adm.params.idleTimeout s.cls, time := { s.time with agingDue := false } }
  else s

/-- The removal asked by STATION_CLEAR (R77). -/
def removeStationFlows (i : Fin 128) (c : Classifier) : Classifier :=
  let r := removeFlows (fun e => e.station == some i) c
  { r.2 with removed := satAdd r.1 r.2.removed }

/-! ### Commands -/

/-- RULE_SET (R66). -/
def ruleSet (p : List Byte) (s : State) : Done :=
  match indexOf 32 (param1 p 0), ruleAt p 1 with
  | some i, some r => done { s with cls := { s.cls with rules := vput s.cls.rules i (some r) } }
  | _, _ => refuse .refusedRange s

/-- RULE_CLEAR (R66). -/
def ruleClear (p : List Byte) (s : State) : Done :=
  match indexOf 32 (param1 p 0) with
  | some i => done { s with cls := { s.cls with rules := vput s.cls.rules i none } }
  | none => refuse .refusedRange s

/-- A command completed DONE with the index of the entry it acted on (section 4.6). -/
def doneEntry (i : Fin 256) (s : State) : Done := { state := s, status := .done, result := u8 i.val }

/-- The entry of FLOW_PIN over an existing one (R78). -/
def repin (cls : Class) (allowance now : Nat) (e : Flow) : Flow :=
  { e with cls := cls, allowance := allowance, overCount := 0, pinned := true, lastSeen := now }

/-- A new pinned entry (R78). -/
def pinnedFlow (key : FlowKey) (cls : Class) (allowance now : Nat) : Flow :=
  { key := key, station := none, cls := cls, allowance := allowance, pinned := true, periodBytes := 0, overFlag := false, overCount := 0,
    lastSeen := now, count := 0 }

/-- FLOW_PIN (R78). -/
def flowPin (p : List Byte) (s : State) : Done :=
  let key := flowKeyAt p 0
  match classAllowance (param1 p 13) (param2 p 14) with
  | none => refuse .refusedRange s
  | some (cls, allowance) =>
    match findFlow s.cls.flows key with
    | some i =>
      match s.cls.flows[i] with
      | none => refuse .refusedState s
      | some e =>
        if !e.pinned && decide (Config.pinLimit ≤ pinnedCount s.cls.flows) then refuse .refusedFull s
        else doneEntry i { s with cls := putFlow i (some (repin cls allowance s.now e)) s.cls }
    | none =>
      if Config.pinLimit ≤ pinnedCount s.cls.flows then refuse .refusedFull s
      else
        match placeFor s.cls with
        | none => refuse .refusedFull s
        | some (i, c) => doneEntry i { s with cls := putFlow i (some (pinnedFlow key cls allowance s.now)) c }

/-- FLOW_UNPIN (R79). -/
def flowUnpin (p : List Byte) (s : State) : Done :=
  match findFlow s.cls.flows (flowKeyAt p 0) with
  | none => refuse .refusedState s
  | some i => doneEntry i { s with cls := { s.cls with flows := vmod s.cls.flows i (Option.map fun e => { e with pinned := false }) } }

/-- FLOW_PROMOTE (R80). -/
def flowPromote (p : List Byte) (s : State) : Done :=
  match findFlow s.cls.flows (flowKeyAt p 0) with
  | none => refuse .refusedState s
  | some i =>
    match s.cls.flows[i] with
    | none => refuse .refusedState s
    | some e =>
      if e.cls = .demoted then doneEntry i { s with cls := putFlow i (some { e with cls := .urgent, overCount := 0 }) s.cls }
      else refuse .refusedState s

/-- FLOW_FLUSH (R80). -/
def flowFlush (_p : List Byte) (s : State) : Done :=
  let r := removeFlows (fun e => !e.pinned) s.cls
  { state := { s with cls := { r.2 with removed := satAdd r.1 r.2.removed } }, status := .done, result := u16 r.1 }

/-- FLOW_AGING. -/
def execFlowAging (s : State) : Answer := .next (flowAging s)

/-- RULE_SET, code 0x07. -/
def execRuleSet (s : State) : Answer := .next (runCommand 0x07 (atOnce ruleSet) s)

/-- RULE_CLEAR, code 0x08. -/
def execRuleClear (s : State) : Answer := .next (runCommand 0x08 (atOnce ruleClear) s)

/-- FLOW_PIN, code 0x09. -/
def execFlowPin (s : State) : Answer := .next (runCommand 0x09 (atOnce flowPin) s)

/-- FLOW_UNPIN, code 0x0A. -/
def execFlowUnpin (s : State) : Answer := .next (runCommand 0x0A (atOnce flowUnpin) s)

/-- FLOW_PROMOTE, code 0x0B. -/
def execFlowPromote (s : State) : Answer := .next (runCommand 0x0B (atOnce flowPromote) s)

/-- FLOW_FLUSH, code 0x0C. -/
def execFlowFlush (s : State) : Answer := .next (runCommand 0x0C (atOnce flowFlush) s)

end Sys2Proof.Machine
end

