-- ==== Sys2Proof/Machine/Admission.lean ====
section
/-! DEFINITION. The Admission Unit: the admission of one descriptor (R86 to R91), the pacing period boundary (R82, R93 to R95) and
the commands PACING_SET (R83) and CAP_SET (R84). -/

namespace Sys2Proof.Machine

open Sys2Proof

/-- The queue roles an admission answers (R86). -/
inductive Role where
  | urgent | normal | bulk
  deriving DecidableEq, Repr

/-- The flow test of R88: F + L ≤ A, also for a length of 0. Where the period bytes exceed the allowance, as FLOW_PIN may leave them, a
length of 0 fails it: a DESIGN CHOICE (log 30). -/
def flowTest (e : Flow) (len : Nat) : Bool := decide (e.periodBytes + len ≤ e.allowance * 64)

/-- The cap test of R88. -/
def capTest (a : AdmSlot) (len : Nat) : Bool := decide (a.cap = 0) || decide (a.urgent + len ≤ a.cap * 64)

/-- A slot of the Admission Unit changed. -/
def modAdmSlot (slot : Fin 16) (f : AdmSlot → AdmSlot) (s : State) : State :=
  { s with adm := { s.adm with slots := vmod s.adm.slots slot f } }

/-- An entry of the Flow Table changed by the Admission Unit. -/
def modFlow (i : Fin 256) (f : Flow → Flow) (s : State) : State :=
  { s with cls := { s.cls with flows := vmod s.cls.flows i (Option.map f) } }

/-- The last-urgent stamp of a resolved station (R90). -/
def stampUrgent (station : Option (Fin 128)) (s : State) : State :=
  match station with
  | none => s
  | some i => modStation i (fun st => { st with lastUrgent := some s.now }) s

/-- The effects of an admission (R88). -/
def chargeUrgent (slot : Fin 16) (len : Nat) (i : Fin 256) (station : Option (Fin 128)) (s : State) : State :=
  let s := modFlow i (fun e => { e with periodBytes := e.periodBytes + len }) s
  let s := modAdmSlot slot (fun a => { a with urgent := a.urgent + len, admitted := satInc count32 a.admitted }) s
  let s := stampUrgent station s
  { s with adm := { s.adm with admitted := true, activity := true } }

/-- The admission of a descriptor of an URGENT flow (R87, R88, R89). -/
def admitUrgent (slot : Fin 16) (len : Nat) (i : Fin 256) (e : Flow) (station : Option (Fin 128)) (noUrgent : Bool) (s : State) : Role × State :=
  if noUrgent then (.normal, modAdmSlot slot (fun a => { a with withheld := satInc count32 a.withheld }) s)
  else if flowTest e len then
    if capTest s.adm.slots[slot] len then (.urgent, chargeUrgent slot len i station s)
    else (.normal, modAdmSlot slot (fun a => { a with spillCap := satInc count32 a.spillCap }) s)
  else
    (.normal, modAdmSlot slot (fun a => { a with spillAllowance := satInc count32 a.spillAllowance })
      (modFlow i (fun e => { e with overFlag := true }) s))

/-- The queue role of a classified descriptor (Table 5.2). -/
def admission (slot : Fin 16) (len : Nat) (answer : ClassAnswer) (station : Option (Fin 128)) (noUrgent : Bool) (s : State) : Role × State :=
  match answer.cls with
  | .bulk => (.bulk, s)
  | .demoted => (.normal, s)
  | .normal => (.normal, s)
  | .urgent =>
    match answer.entry with
    | none => (.normal, s)
    | some i =>
      match s.cls.flows[i] with
      | none => (.normal, s)
      | some e => admitUrgent slot len i e station noUrgent s

/-! ### The pacing period boundary -/

/-- The staged cap of one slot comes into force (R93). -/
def applyCap (a : AdmSlot) : AdmSlot := if a.capPending then { a with cap := a.stagedCap, capPending := false } else a

/-- Step 1: staged values come into force, each with its report (R93). -/
def applyStaged (s : State) : State :=
  let s :=
    if s.adm.pending then
      offer (.pacingApplied s.adm.staged) { s with adm := { s.adm with params := s.adm.staged, pending := false } }
    else s
  let reports := (List.finRange 16).filterMap fun i =>
    if s.adm.slots[i].capPending then some (Report.capApplied i s.adm.slots[i].stagedCap) else none
  offerAll reports { s with adm := { s.adm with slots := vmap applyCap s.adm.slots } }

/-- The over count of an URGENT entry after a period (R94). -/
def Flow.nextOver (e : Flow) : Nat := if e.overFlag then satInc 15 e.overCount else 0

/-- The entry reaches the threshold at this boundary (R94). -/
def Flow.demotes (threshold : Nat) (e : Flow) : Bool := decide (e.cls = .urgent) && decide (threshold ≤ e.nextOver)

/-- Step 2 for one entry (R94). -/
def Flow.stepOver (threshold : Nat) (e : Flow) : Flow :=
  if e.cls = .urgent then { e with overCount := e.nextOver, cls := if e.demotes threshold then .demoted else .urgent } else e

/-- Step 2: over counts advance, flows are demoted and reported in ascending entry index (R94). DEMOTIONS, to which R92 gives no range,
saturates at 2^32 - 1 as the counts of the slots do: DESIGN CHOICE (log 20), unsafe. -/
def demoteFlows (s : State) : State :=
  let t := s.adm.params.threshold
  let reports := (List.finRange 256).filterMap fun i =>
    (s.cls.flows[i]).bind fun e =>
      if e.demotes t then some (Report.flowDemoted i e.station e.key e.allowance e.nextOver e.count) else none
  offerAll reports
    { s with cls := { s.cls with flows := vmap (Option.map (Flow.stepOver t)) s.cls.flows },
             adm := { s.adm with demotions := satAdd reports.length s.adm.demotions } }

/-- Step 3: the period's counters are cleared (R95). -/
def clearPeriod (s : State) : State :=
  { s with cls := { s.cls with flows := vmap (Option.map fun e => { e with periodBytes := 0, overFlag := false }) s.cls.flows },
           adm := { s.adm with slots := vmap (fun a => { a with urgent := 0 }) s.adm.slots } }

/-- Step 4: the activity flag is carried (R91, R95). -/
def carryActivity (s : State) : State := { s with adm := { s.adm with activity := s.adm.admitted, admitted := false } }

/-- PACING_PERIOD_BOUNDARY (R82, R93 to R95). -/
def pacingBoundary (s : State) : State :=
  if s.adm.boundaryDue then
    carryActivity (clearPeriod (demoteFlows (applyStaged { s with adm := { s.adm with boundaryDue := false } })))
  else s

/-! ### Commands -/

/-- PACING_SET (R83). -/
def pacingSet (p : List Byte) (s : State) : Done :=
  let q : Pacing := ⟨param1 p 0, param1 p 1, param1 p 2⟩
  if 1 ≤ q.period ∧ q.period ≤ 255 ∧ 1 ≤ q.threshold ∧ q.threshold ≤ 15 ∧ 1 ≤ q.idleTimeout ∧ q.idleTimeout ≤ 255 then
    if s.adm.pending then refuse .refusedPending s
    else { state := { s with adm := { s.adm with staged := q, pending := true } }, status := .accepted, result := [] }
  else refuse .refusedRange s

/-- CAP_SET (R84). -/
def capSet (p : List Byte) (s : State) : Done :=
  let cap := param2 p 1
  match (if 2 ≤ param1 p 0 then indexOf 16 (param1 p 0) else none) with
  | none => refuse .refusedRange s
  | some slot =>
    if s.win.slots[slot].kind ≠ .txRing then refuse .refusedRange s
    else if s.adm.slots[slot].capPending then refuse .refusedPending s
    else { state := modAdmSlot slot (fun a => { a with stagedCap := cap, capPending := true }) s, status := .accepted, result := [] }

/-- PACING_PERIOD_BOUNDARY. -/
def execPacingPeriodBoundary (s : State) : Answer := .next (pacingBoundary s)

/-- PACING_SET, code 0x0D. -/
def execPacingSet (s : State) : Answer := .next (runCommand 0x0D (atOnce pacingSet) s)

/-- CAP_SET, code 0x0E. -/
def execCapSet (s : State) : Answer := .next (runCommand 0x0E (atOnce capSet) s)

end Sys2Proof.Machine
end

