-- ==== Sys2Proof/Machine/Capture.lean ====
section
/-! DEFINITION. The Capture Unit: frame-start writes (R19, R20), header parsing (R21 to R24), the Capture Buffer (R25, R26). -/

namespace Sys2Proof.Machine

open Sys2Proof

/-- A write into a FRAME_BUFFER window is a frame-start write (R19), by the record of its window copy. -/
def frameStarts (r : WindowRec) (t : TxnAddr) : Bool :=
  t.burst == .incr && decide (r.base + r.headroom ≤ t.addr.toNat) && (t.addr.toNat - r.base - r.headroom) % r.stride == 0

/-- The captured bytes of a frame-start write: up to the first clear strobe, at most 96 (R20). -/
def capturedBytes (d : List Lane) : List Byte := ((d.takeWhile Lane.strobe).map Lane.byte).take Config.captureBytes

/-! ### Header fields: present when every byte is captured, most significant byte first (R20) -/

def netField (bs : List Byte) (off n : Nat) : Option Nat :=
  if off + n ≤ bs.length then some (beNat (slice bs off n)) else none

def netByte (bs : List Byte) (off : Nat) : Option Byte := bs[off]?

def netPort (bs : List Byte) (off : Nat) : Option (BitVec 16) := (netField bs off 2).map (BitVec.ofNat 16)

def netWord (bs : List Byte) (off : Nat) : Option Word := (netField bs off 4).map (BitVec.ofNat 32)

/-- The exclusive-or of the four words of an IPv6 address, present when all sixteen bytes are (R23). -/
def netFold6 (bs : List Byte) (off : Nat) : Option Word :=
  if off + 16 ≤ bs.length then
    some (BitVec.ofNat 32 (beNat (slice bs off 4)) ^^^ BitVec.ofNat 32 (beNat (slice bs (off + 4) 4)) ^^^
      BitVec.ofNat 32 (beNat (slice bs (off + 8) 4)) ^^^ BitVec.ofNat 32 (beNat (slice bs (off + 12) 4)))
  else none

/-- The EtherType in use and the offset of the network header: one VLAN tag is skipped (R21). -/
def etherType (bs : List Byte) : Option Nat × Nat :=
  if netField bs 12 2 = some 0x8100 then (netField bs 16 2, 18) else (netField bs 12 2, 14)

/-- The kind of a frame by the EtherType in use (R21). -/
def kindOf (et : Option Nat) : FrameKind :=
  if et = some 0x0800 then .ipv4 else if et = some 0x86DD then .ipv6 else .other

/-- The transport offset of an IPv4 header at `o`: present when the header length is, and is at least 5 (R22). -/
def transport4 (bs : List Byte) (o : Nat) : Option Nat :=
  match netByte bs o with
  | none => none
  | some b => let h := b.toNat % 16; if 5 ≤ h then some (o + 4 * h) else none

/-- DSCP of an IPv4 header: the top six bits of byte o + 1 (R22). -/
def dscp4 (bs : List Byte) (o : Nat) : Option (BitVec 6) := (netByte bs (o + 1)).map fun b => b.extractLsb' 2 6

/-- DSCP of an IPv6 header: the low four bits of byte o, then the top two bits of byte o + 1 (R23). -/
def dscp6 (bs : List Byte) (o : Nat) : Option (BitVec 6) :=
  match netByte bs o, netByte bs (o + 1) with
  | some b0, some b1 => some (b0.extractLsb' 0 4 ++ b1.extractLsb' 6 2)
  | _, _ => none

/-- The ports are taken for TCP and UDP where a transport offset exists (R24). -/
def portsAt (bs : List Byte) (proto : Option Byte) (t : Option Nat) : Option (BitVec 16) × Option (BitVec 16) :=
  match t with
  | none => (none, none)
  | some t => if proto = some 6 ∨ proto = some 17 then (netPort bs t, netPort bs (t + 2)) else (none, none)

/-- The capture record of a frame at `key` from its captured bytes, at least 12 of them (R21 to R24). -/
def parseFrame (key now : Nat) (bs : List Byte) : Capture :=
  let et := etherType bs
  let o := et.2
  let kind := kindOf et.1
  let blank : Capture :=
    { key := key, dst := macAt bs 0, kind := kind, proto := none, srcFold := none, dstFold := none, dscp := none, srcPort := none,
      dstPort := none, uptime := now }
  match kind with
  | .other => blank
  | .ipv4 =>
    let proto := netByte bs (o + 9)
    let ports := portsAt bs proto (transport4 bs o)
    { blank with proto := proto, srcFold := netWord bs (o + 12), dstFold := netWord bs (o + 16), dscp := dscp4 bs o, srcPort := ports.1,
                 dstPort := ports.2 }
  | .ipv6 =>
    let proto := netByte bs (o + 6)
    let ports := portsAt bs proto (some (o + 40))
    { blank with proto := proto, srcFold := netFold6 bs (o + 8), dstFold := netFold6 bs (o + 24), dscp := dscp6 bs o, srcPort := ports.1,
                 dstPort := ports.2 }

/-! ### The Capture Buffer -/

/-- A record with the key is removed and counted REPLACED (R21, R25 step 1). -/
def dropCapture (key : Nat) (c : CaptureUnit) : CaptureUnit :=
  if c.records.any fun r => r.key == key then
    { c with records := c.records.filter fun r => r.key != key, replaced := satInc count32 c.replaced }
  else c

/-- The oldest record is removed when the buffer is full (R25 step 2). -/
def evictCapture (c : CaptureUnit) : CaptureUnit :=
  if Config.captureLimit ≤ c.records.length then { c with records := c.records.tail, evicted := satInc count32 c.evicted } else c

/-- The entry of a capture record (R25). -/
def enterCapture (r : Capture) (c : CaptureUnit) : CaptureUnit :=
  let c := evictCapture (dropCapture r.key c)
  { c with records := c.records ++ [r], captured := satInc count32 c.captured }

/-- A frame-start write is examined at its reception (R19 to R25). -/
def captureFrame (key now : Nat) (d : List Lane) (c : CaptureUnit) : CaptureUnit :=
  let bs := capturedBytes d
  if bs.length < 12 then dropCapture key c else enterCapture (parseFrame key now bs) c

/-- Consumption: the record with a key is handed over and removed, or the lookup misses (R26). -/
def consume (key : Nat) (c : CaptureUnit) : Option (Capture × CaptureUnit) :=
  match c.records.find? fun r => r.key == key with
  | none => none
  | some r => some (r, { c with records := c.records.filter fun q => q.key != key })

end Sys2Proof.Machine
end

