-- ==== Sys2Proof/Machine/Hold.lean ====
section
/-! DEFINITION. The Hold Unit: handoff slots and the hold pool (R130, R131), parking (R132), the release (R135, R136), the dump and
HOLD_RELEASE (R137, R138), STATION_CLEAR (R32), HANDOFF_END (R133) and DUMP_WRITE_RESPONSE. -/

namespace Sys2Proof.Machine

open Sys2Proof

/-- A handoff slot written. -/
def putSlot (k : Fin 16) (h : HandoffSlot) (s : State) : State := { s with hold := { s.hold with slots := vput s.hold.slots k h } }

/-- The lowest FREE slot (R130). -/
def freeSlot (h : HoldUnit) : Option (Fin 16) := vfind (fun x => decide (x = HandoffSlot.free)) h.slots

/-! ### Parking (R132) -/

/-- A parking request for the handoff of a slot: whether it is granted, and the slot after it. -/
def parkIn (addr len : Nat) (slot : Fin 16) (o : Occupied) : Bool × Occupied :=
  let arrival := o.requests
  let o := { o with requests := satInc 255 o.requests }
  if o.list.length < Config.holdLimit then
    (true, { o with list := o.list ++ [{ addr := addr, length := len, slot := slot, arrival := arrival }] })
  else (false, o)

/-- A parking request of the Descriptor Rewriter (R132). A station in HANDOFF names an OCCUPIED slot (R130). -/
def parkRequest (k : Option (Fin 16)) (addr len : Nat) (slot : Fin 16) (s : State) : Bool × State :=
  match k with
  | none => (false, s)
  | some k =>
    match s.hold.slots[k] with
    | .occupied o =>
      let r := parkIn addr len slot o
      let s' := putSlot k (.occupied r.2) s
      (r.1, if r.1 then { s' with hold := { s'.hold with free := s'.hold.free - 1 } } else s')
    | .free => (false, s)
    | .dumping _ => (false, s)

/-! ### The release taken (R135) -/

/-- Table 8.3. -/
def releaseDisposition (outcome : HandoffOutcome) (closed : Bool) : Disposition :=
  match outcome with
  | .departed => .forward
  | .stayed => if closed then .discard else .resend
  | .timedOut => if closed then .discard else .resend
  | .cleared => .discard

/-- The station after a release (R135 step 3, R136), with the holdoff deadline. -/
def releasedStation (outcome : HandoffOutcome) (deadline : Nat) (st : Station) : Station :=
  let st := { st with overflow := 0, slot := none }
  match outcome with
  | .departed => { st with state := .holdoff, deadline := deadline, est := none, dwell := 0, peer := none, away := true }
  | .stayed => { st with state := .holdoff, deadline := deadline }
  | .timedOut => { st with state := .holdoff, deadline := deadline }
  | .cleared => { st with state := .settled, dwell := 0, deadline := 0 }

/-- The count of releases of an outcome increases (R141). -/
def countRelease (outcome : HandoffOutcome) (h : HoldUnit) : HoldUnit :=
  match outcome with
  | .departed => { h with departed := satInc count32 h.departed }
  | .stayed => { h with stayed := satInc count32 h.stayed }
  | .timedOut => { h with timedOut := satInc count32 h.timedOut }
  | .cleared => { h with cleared := satInc count32 h.cleared }

/-- How many dump writes a held count takes (R137). -/
def dumpWrites (held : Nat) : Nat := if held = 0 then 0 else if held ≤ 16 then 1 else 2

/-- The area of a slot in the hold dump (R137). -/
def dumpArea (s : State) (k : Fin 16) : Nat := s.control + Config.dumpOffset + k.val * 256

/-- One write of the dump. -/
def dumpWrite (k : Fin 16) (addr : Nat) (refs : List (HoldRef × Disposition)) : OwnWrite :=
  { kind := .dump k, addr := addr, data := refs.flatMap refBytes }

/-- The dump writes request the write side (R137). -/
def requestDump (k : Fin 16) (refs : List (HoldRef × Disposition)) (s : State) : State :=
  if refs.length = 0 then s
  else if refs.length ≤ 16 then request (dumpWrite k (dumpArea s k) refs) s
  else request (dumpWrite k (dumpArea s k + 128) (refs.drop 16)) (request (dumpWrite k (dumpArea s k) (refs.take 16)) s)

/-! ### The end of a release -/

/-- The Command Unit waits with the command at the front. -/
def setExecuting (e : Executing) (s : State) : State := { s with cmd := { s.cmd with executing := e } }

/-- Step 2 of STATION_CLEAR (R32, R77): the entries that name the station are removed; step 3 is still to be taken (log 24). -/
def clearFlows (i : Fin 128) (s : State) : State :=
  setExecuting (.emptying i) { s with cls := removeStationFlows i s.cls }

/-- Step 3 of STATION_CLEAR (R32, R77), in one operation: the entries that name the station now are removed, and the record is emptied. -/
def emptyStation (i : Fin 128) (s : State) : State := putStation i none { s with cls := removeStationFlows i s.cls }

/-- The next step of the STATION_CLEAR in execution: step 2 once the release of step 1 is over, and step 3, with the command's end, once
step 2 has been taken (R32). Each is an event of its own, so that a decision may stand between them (R110, log 24), and is not taken while
a visit is due (log 5). -/
def clearStep (s : State) : State :=
  match s.cmd.executing with
  | .removing i => if visiting s then s else clearFlows i s
  | .emptying i => if visiting s then s else completeCommand .done [] (emptyStation i s)
  | .idle => s
  | .ending _ => s
  | .clearing _ _ => s
  | .stats _ _ _ _ => s

/-- The command that took the release goes on (R133, R134): HANDOFF_END ends, and STATION_CLEAR stands before its step 2 (R32). -/
def resumeCommand (k : Fin 16) (s : State) : State :=
  match s.cmd.executing with
  | .ending k' => if k' = k then completeCommand .done [] s else s
  | .clearing k' i => if k' = k then setExecuting (.removing i) s else s
  | .idle => s
  | .removing _ => s
  | .emptying _ => s
  | .stats _ _ _ _ => s

/-- The dump is complete: HOLD_RELEASE is produced and the slot becomes FREE (R138). -/
def finishDump (k : Fin 16) (d : Dumping) (s : State) : State :=
  let s := offer (.holdRelease d.outcome d.station d.tag d.buffer.length d.overflow k d.fault d.start d.requests) s
  resumeCommand k (putSlot k .free s)

/-- The release of the handoff of station `i`, held in slot `k` (R135 to R138). -/
def takeRelease (outcome : HandoffOutcome) (i : Fin 128) (st : Station) (k : Fin 16) (o : Occupied) (s : State) : State :=
  let refs := o.list.map fun r => (r, releaseDisposition outcome st.closed)
  let d : Dumping :=
    { station := o.station, tag := o.tag, start := o.start, requests := o.requests, buffer := refs, outcome := outcome,
      overflow := st.overflow, fault := false, awaited := dumpWrites refs.length }
  let s := putSlot k (.dumping d) s
  let s := { s with hold := countRelease outcome { s.hold with free := s.hold.free + o.list.length } }
  let s := modStation i (releasedStation outcome (s.after s.sig.profiles[st.roam].holdoff)) s
  let s := requestDump k refs s
  if refs.length = 0 then finishDump k d s else s

/-- The handoff a station is in: its slot and what the slot holds (R130). -/
def handoffOf (h : HoldUnit) (st : Station) : Option (Fin 16 × Occupied) :=
  if st.state = .handoff then
    match st.slot with
    | none => none
    | some k =>
      match h.slots[k] with
      | .occupied o => some (k, o)
      | .free => none
      | .dumping _ => none
  else none

/-! ### Commands -/

/-- HANDOFF_END (R133). -/
def handoffEnd (p : List Byte) (s : State) : State :=
  match indexOf 128 (param1 p 0), endOutcomeOf (param1 p 1) with
  | some i, some outcome =>
    match s.sta.stations[i] with
    | none => completeCommand .refusedState [] s
    | some st =>
      match handoffOf s.hold st with
      | none => completeCommand .refusedState [] s
      | some (k, o) => takeRelease outcome i st k o (setExecuting (.ending k) s)
  | _, _ => completeCommand .refusedRange [] s

/-- STATION_CLEAR (R32): the checks, and step 1 for a station in HANDOFF or step 2 for any other. -/
def stationClear (p : List Byte) (s : State) : State :=
  match indexOf 128 (param1 p 0) with
  | none => completeCommand .refusedRange [] s
  | some i =>
    match s.sta.stations[i] with
    | none => completeCommand .refusedState [] s
    | some st =>
      match handoffOf s.hold st with
      | some (k, o) => takeRelease .cleared i st k o (setExecuting (.clearing k i) s)
      | none => clearFlows i s

/-! ### Responses -/

/-- An issued own write of a kind is answered: its entry leaves the list. -/
def dropOwn (tag : Nat) (s : State) : State := { s with own := { s.own with issued := s.own.issued.filter fun e => e.1 != tag } }

/-- The kind of the issued own write a tag names. -/
def ownKind (s : State) (tag : Nat) : Option OwnKind := (s.own.issued.find? fun e => e.1 == tag).map Prod.snd

/-- The response of one dump write in its slot: an error marks FAULT (R137). -/
def answerDump (resp : Resp) (d : Dumping) : Dumping :=
  { d with awaited := d.awaited - 1, fault := d.fault || resp != .okay }

/-- DUMP_WRITE_RESPONSE (R137, R138). -/
def dumpResponse (tag : Nat) (resp : Resp) (s : State) : State :=
  match ownKind s tag with
  | some (.dump k) =>
    match s.hold.slots[k] with
    | .dumping d =>
      let d' := answerDump resp d
      let s := dropOwn tag s
      let s := if resp = .okay then s else { s with hold := { s.hold with dumpFaults := satInc count32 s.hold.dumpFaults } }
      if d'.awaited = 0 then finishDump k d' s else putSlot k (.dumping d') s
    | .free => s
    | .occupied _ => s
  | _ => s

/-- DUMP_WRITE_RESPONSE. -/
def execDumpWriteResponse (tag : Nat) (resp : Resp) (s : State) : Answer := .next (dumpResponse tag resp s)

/-- STATION_CLEAR, code 0x06: its first step, and the steps that are left when it is in execution (log 24). -/
def execStationClear (s : State) : Answer := .next (if s.cmd.executing = .idle then runCommand 0x06 stationClear s else clearStep s)

/-- HANDOFF_END, code 0x1B. -/
def execHandoffEnd (s : State) : Answer := .next (runCommand 0x1B handoffEnd s)

end Sys2Proof.Machine
end

