-- ==== Sys2Proof/Machine/Schedule.lean ====
section
/-! DEFINITION. The Schedule Unit: window evaluation and the gate (R47 to R49), minute-boundary processing (R51 to R56), the commands
TIME_SET, SCHEDULE_STAGE, ALLOWANCE_STAGE, SCHEDULE_COMMIT, SCHEDULE_EVALUATE, GRANT, GATE_SET and LINE_SET, and the edges of
LINE_IN (R61 to R63). -/

namespace Sys2Proof.Machine

open Sys2Proof

/-! ### The clock of week -/

/-- Day 0..6 and minute-of-day 0..1439 (section 3.2). -/
def Clock.day (c : Clock) : Nat := c.minute / 1440
def Clock.minuteOfDay (c : Clock) : Nat := c.minute % 1440

/-- The clock at second 0 of the next minute, wrapping from 10079 to 0 (R40). -/
def Clock.nextMinute (c : Clock) : Clock := { c with minute := (c.minute + 1) % 10080, second := 0 }

/-- A boundary is a day rollover when the new minute-of-week is a multiple of 1440 (R40). -/
def Clock.rollsOver (c : Clock) : Bool := c.minute % 1440 == 0

/-- The clock of week written. -/
def setClock (c : Clock) (s : State) : State := { s with sched := { s.sched with clock := c } }

/-! ### Profiles and window evaluation -/

/-- The active copy of a station's schedule profile, or none for profile none. -/
def profileOf (active : Vector SchedProfile 16) (st : Station) : Option SchedProfile := st.sched.map fun i => active[i]

/-- A window covers a day and a minute-of-day (R47). -/
def SchedWindow.covers (w : SchedWindow) (day minute : Nat) : Bool :=
  w.days.getLsbD day && decide (w.start ≤ minute) && decide (minute < w.stop)

/-- The three results of an evaluation: WINDOW reason, NO_URGENT flag, FREE flag. -/
def Station.withWindow (st : Station) (window noUrgent free : Bool) : Station :=
  { st with reasons := { st.reasons with window := window }, noUrgent := noUrgent, free := free }

/-- Window evaluation of one station (R47, R48). -/
def evaluate (clock : Clock) (active : Vector SchedProfile 16) (st : Station) : Station :=
  match profileOf active st with
  | none => st.withWindow false false false
  | some prof =>
    if clock.isSet then
      match vfind (fun w => w.covers clock.day clock.minuteOfDay) prof.windows with
      | none => st.withWindow false false false
      | some i =>
        match prof.windows[i].action with
        | .block => st.withWindow true false false
        | .noUrgent => st.withWindow false true false
        | .free => st.withWindow false false true
    else st.withWindow prof.closedUnset false false

/-! ### Allowance (R51, R52, R55) -/

/-- The limit L of a station under an allowance (R51). -/
def Station.limit (st : Station) (allowance : Nat) : Nat := min (allowance + st.extra) 1440

/-- The remaining minutes: 0 when used has reached L (R51). -/
def Station.remaining (st : Station) (allowance : Nat) : Nat := st.limit allowance - st.used

/-- The active allowance of a station's profile, 0 for profile none. -/
def allowanceOf (active : Vector SchedProfile 16) (st : Station) : Nat :=
  match profileOf active st with
  | none => 0
  | some prof => prof.allowance

/-- The ALLOWANCE reason given a value. -/
def Station.withAllowance (st : Station) (v : Bool) : Station := { st with reasons := { st.reasons with allowance := v } }

/-- The test of R30 step 3, R31 and R55: an allowance above 0, and used minutes at the limit. -/
def overLimit (active : Vector SchedProfile 16) (st : Station) : Bool :=
  decide (0 < allowanceOf active st) && decide (st.limit (allowanceOf active st) ≤ st.used)

/-! ### Gate changes (R49) -/

/-- A GATE_CHANGE for each station whose gate differs, in ascending index. -/
def gateChanges (cause : GateCause) (before after : Vector (Option Station) 128) : List Report :=
  stationList after fun i st =>
    match before[i] with
    | some old => if old.closed = st.closed then none else some (.gateChange cause i st.closed st.reasons)
    | none => none

/-- The gate changes since `before` are reported. -/
def reportGates (cause : GateCause) (before : Vector (Option Station) 128) (s : State) : State :=
  offerAll (gateChanges cause before s.sta.stations) s

/-! ### Minute-boundary processing (Table 3.3) -/

/-- Step 1 for one station (R51). -/
def countMinute (clock : Clock) (active : Vector SchedProfile 16) (st : Station) : Station :=
  let counts := clock.isSet && decide (0 < allowanceOf active st) && st.active && !st.free
  { st with used := if counts then satInc 1440 st.used else st.used, active := false }

/-- Step 2 for one station (R52). -/
def setAllowance (clock : Clock) (active : Vector SchedProfile 16) (st : Station) : Station :=
  if clock.isSet && overLimit active st then st.withAllowance true else st

/-- The condition of ALLOWANCE_LOW (R53). -/
def lowDue (clock : Clock) (active : Vector SchedProfile 16) (st : Station) : Bool :=
  clock.isSet && decide (0 < allowanceOf active st) && decide (5 < st.limit (allowanceOf active st)) &&
    decide (st.remaining (allowanceOf active st) = 5) && !st.lowSent

/-- Step 3: ALLOWANCE_LOW reports, and the sent flags (R53). -/
def warnLow (s : State) : State :=
  let clock := s.sched.clock
  let active := s.sched.active
  let reports := stationList s.sta.stations fun i st =>
    if lowDue clock active st then
      some (Report.allowanceLow i st.used st.extra (st.limit (allowanceOf active st)) (st.remaining (allowanceOf active st)))
    else none
  offerAll reports (mapStations (fun st => if lowDue clock active st then { st with lowSent := true } else st) s)

/-- The day rollover of one station (R54). -/
def rollStation (st : Station) : Station := { st.withAllowance false with used := 0, extra := 0, lowSent := false }

/-- Step 4: the day rollover (R54). -/
def rollover (s : State) : State :=
  let s := mapStations rollStation s
  { s with sta := { s.sta with carry := [] } }

/-- A station whose profile a mask names. -/
def inMask (mask : BitVec 16) (st : Station) : Bool := st.sched.any fun i => mask.getLsbD i.val

/-- The re-test of a station after a commit (R55). -/
def retest (active : Vector SchedProfile 16) (st : Station) : Station :=
  let st := st.withAllowance (overLimit active st)
  if allowanceOf active st = 0 ∨ 5 < st.remaining (allowanceOf active st) then { st with lowSent := false } else st

/-- The active copies after a commit: the shadow copies of the profiles in the mask (R43, R55). -/
def committed (mask : BitVec 16) (active shadow : Vector SchedProfile 16) : Vector SchedProfile 16 :=
  Vector.ofFn fun i => if mask.getLsbD i.val then shadow[i] else active[i]

/-- Step 5: apply a pending commit (R55). -/
def applyCommit (s : State) : State :=
  match s.sched.commit with
  | none => s
  | some mask =>
    let active := committed mask s.sched.active s.sched.shadow
    let s := { s with sched := { s.sched with active := active, commit := none } }
    offer (.commitApplied mask) (mapStations (fun st => if inMask mask st then retest active st else st) s)

/-- Step 6: window evaluation of every installed station (R56). -/
def evaluateAll (s : State) : State := mapStations (evaluate s.sched.clock s.sched.active) s

/-- No installed station forbids activation: none in CANDIDATE or HANDOFF, none with urgent traffic within Q (R155). -/
def quietFor (now quiet : Nat) (st : Station) : Bool :=
  st.state != .candidate && st.state != .handoff &&
    (match st.lastUrgent with | none => true | some t => decide (quiet < now - t))

/-- The activation condition (R155). -/
def activationReady (s : State) : Bool :=
  let w := s.img.window
  w.enabled && s.sched.clock.isSet && w.days.getLsbD s.sched.clock.day && decide (w.start ≤ s.sched.clock.minuteOfDay) &&
    decide (s.sched.clock.minuteOfDay < w.stop) && decide (s.img.staging.state = .verified) && !s.img.dueSent &&
    s.sta.stations.toList.all (fun o => o.all (quietFor s.now w.quiet))

/-- Step 7: the activation check (R155). -/
def checkActivation (s : State) : State :=
  if activationReady s then
    let bank := match s.img.staging.bank with | some k => k | none => s.img.bank.other
    offer (.activationDue bank s.img.staging.version s.sched.clock.minute s.now) { s with img := { s.img with dueSent := true } }
  else s

/-- The eight steps, the clock standing at the new minute (Table 3.3). -/
def boundarySteps (s : State) : State :=
  let before := s.sta.stations
  let clock := s.sched.clock
  let s := mapStations (countMinute clock s.sched.active) s
  let s := mapStations (setAllowance clock s.sched.active) s
  let s := warnLow s
  let s := if clock.rollsOver then rollover s else s
  let s := applyCommit s
  let s := evaluateAll s
  let s := checkActivation s
  reportGates .boundary before s

/-- The second wraps from 59: the clock advances and the boundary is processed in full (R40). -/
def takeBoundary (s : State) : State :=
  boundarySteps { s with sched := { s.sched with clock := s.sched.clock.nextMinute, minuteDue := false } }

/-- A boundary while RST_N is asserted only advances the clock, and empties the carry list when it is a day rollover (R41). -/
def boundaryInReset (s : State) : State :=
  let s := { s with sched := { s.sched with clock := s.sched.clock.nextMinute, minuteDue := false } }
  if s.sched.clock.rollsOver then { s with sta := { s.sta with carry := [] } } else s

/-- MINUTE_BOUNDARY (R40, R41, R51 to R56). -/
def minuteBoundary (s : State) : State :=
  if s.sched.minuteDue then
    if s.pins.por || s.pins.rst then boundaryInReset s else takeBoundary s
  else s

/-! ### Commands -/

/-- TIME_SET (R42). -/
def timeSet (p : List Byte) (s : State) : Done :=
  let minute := param2 p 0
  let second := param1 p 2
  if minute ≤ 10079 ∧ second ≤ 59 then
    let before := s.sta.stations
    let old := s.sched.clock
    let clock : Clock := { minute := minute, second := second, presc := 0, isSet := true }
    let s := { s with sched := { s.sched with clock := clock, minuteDue := false } }
    let s := mapStations (fun st => { st with active := false }) s
    let s := if !old.isSet || old.day != clock.day then rollover s else s
    done (reportGates .timeSet before (evaluateAll s))
  else refuse .refusedRange s

/-- A pending commit names the profile (R44, R45). -/
def commitNames (s : State) (i : Fin 16) : Bool := s.sched.commit.any fun m => m.getLsbD i.val

/-- The window a SCHEDULE_STAGE writes: empty for an empty day mask, otherwise with its ranges checked (R44). -/
def stagedWindow (days start stop action : Nat) : Option SchedWindow :=
  match daysOf days with
  | none => none
  | some d =>
    if days = 0 then some ⟨0, 0, 0, .block⟩
    else
      match actionOf action with
      | none => none
      | some a => if start ≤ 1439 ∧ 1 ≤ stop ∧ stop ≤ 1440 ∧ start < stop then some ⟨d, start, stop, a⟩ else none

/-- A shadow copy changed. -/
def modShadow (i : Fin 16) (f : SchedProfile → SchedProfile) (s : State) : State :=
  { s with sched := { s.sched with shadow := vmod s.sched.shadow i f } }

/-- SCHEDULE_STAGE (R44). -/
def scheduleStage (p : List Byte) (s : State) : Done :=
  match indexOf 16 (param1 p 0), indexOf 8 (param1 p 1), stagedWindow (param1 p 2) (param2 p 3) (param2 p 5) (param1 p 7) with
  | some i, some k, some w =>
    if commitNames s i then refuse .refusedPending s
    else done (modShadow i (fun prof => { prof with windows := vput prof.windows k w }) s)
  | _, _, _ => refuse .refusedRange s

/-- ALLOWANCE_STAGE (R45). -/
def allowanceStage (p : List Byte) (s : State) : Done :=
  match indexOf 16 (param1 p 0), triggerOf (param1 p 3), policyOf (param1 p 4) with
  | some i, some trigger, some policy =>
    if param2 p 1 ≤ 1440 then
      if commitNames s i then refuse .refusedPending s
      else done (modShadow i (fun prof => { prof with allowance := param2 p 1, lineTrigger := trigger, closedUnset := policy }) s)
    else refuse .refusedRange s
  | _, _, _ => refuse .refusedRange s

/-- SCHEDULE_COMMIT (R46). -/
def scheduleCommit (p : List Byte) (s : State) : Done :=
  if param2 p 0 = 0 then refuse .refusedRange s
  else
    match s.sched.commit with
    | some _ => refuse .refusedPending s
    | none =>
      { state := { s with sched := { s.sched with commit := some (BitVec.ofNat 16 (param2 p 0)) } }, status := .accepted, result := [] }

/-- SCHEDULE_EVALUATE (R57). -/
def scheduleEvaluate (_p : List Byte) (s : State) : Done := done (reportGates .evaluate s.sta.stations (evaluateAll s))

/-- The grant to a station with allowance `a` (R58). -/
def grantStation (a minutes : Nat) (st : Station) : Station :=
  let st := { st with extra := min (st.extra + minutes) 240 }
  let st := if st.used < st.limit a then st.withAllowance false else st
  if 5 < st.remaining a then { st with lowSent := false } else st

/-- GRANT (R58). -/
def grant (p : List Byte) (s : State) : Done :=
  let minutes := param1 p 1
  match indexOf 128 (param1 p 0) with
  | none => refuse .refusedRange s
  | some i =>
    if 1 ≤ minutes ∧ minutes ≤ 240 then
      match s.sta.stations[i] with
      | none => refuse .refusedState s
      | some st =>
        if allowanceOf s.sched.active st = 0 then refuse .refusedState s
        else
          done (reportGates .grant s.sta.stations (modStation i (grantStation (allowanceOf s.sched.active st) minutes) s))
    else refuse .refusedRange s

/-- The reasons software owns, set and cleared (R59). Bit 2 is LINE, bit 3 is HOST (R161). -/
def applyMasks (set clear : Byte) (st : Station) : Station :=
  { st with reasons := { st.reasons with line := (st.reasons.line || set.getLsbD 2) && !clear.getLsbD 2,
                                         host := (st.reasons.host || set.getLsbD 3) && !clear.getLsbD 3 } }

/-- Masks within {LINE, HOST} and disjoint (R59 step 1). -/
def masksOk (set clear : Byte) : Bool := (set &&& 0xF3#8) == 0 && (clear &&& 0xF3#8) == 0 && (set &&& clear) == 0

/-- GATE_SET (R59); ALL is coded 0xFF (R161). -/
def gateSet (p : List Byte) (s : State) : Done :=
  let set := byteAt p 1
  let clear := byteAt p 2
  if masksOk set clear then
    if param1 p 0 = 255 then done (reportGates .gateSet s.sta.stations (mapStations (applyMasks set clear) s))
    else
      match indexOf 128 (param1 p 0) with
      | none => refuse .refusedRange s
      | some i =>
        match s.sta.stations[i] with
        | none => refuse .refusedState s
        | some _ => done (reportGates .gateSet s.sta.stations (modStation i (applyMasks set clear) s))
  else refuse .refusedRange s

/-- LINE_SET (R60). -/
def lineSet (p : List Byte) (s : State) : Done :=
  match lineModeOf (param1 p 0), polarityOf (param1 p 1), flagOf (param1 p 2) with
  | some mode, some pol, some follow =>
    done { s with sched := { s.sched with line := { s.sched.line with mode := mode, assertedHigh := pol, follow := follow } } }
  | _, _, _ => refuse .refusedRange s

/-! ### The line input -/

/-- The filtered line stands asserted under the polarity in force (R60, R61). -/
def Line.asserted (l : Line) : Bool := l.level == l.assertedHigh

/-- The station's profile has its LINE trigger enabled (R62). -/
def lineAffects (active : Vector SchedProfile 16) (st : Station) : Bool := (profileOf active st).any fun prof => prof.lineTrigger

/-- The LINE reason of an affected station given a value. -/
def withLine (active : Vector SchedProfile 16) (v : Bool) (st : Station) : Station :=
  if lineAffects active st then { st with reasons := { st.reasons with line := v } } else st

/-- How many affected stations' LINE reason a value changes. -/
def lineChanges (active : Vector SchedProfile 16) (v : Bool) (stations : Vector (Option Station) 128) : Nat :=
  vcount (fun o => o.any fun st => lineAffects active st && st.reasons.line != v) stations

/-- An edge in mode PAUSE that sets or clears LINE (R62). -/
def pauseEdge (v : Bool) (s : State) : State :=
  let before := s.sta.stations
  let n := lineChanges s.sched.active v before
  let s := mapStations (withLine s.sched.active v) s
  reportGates .line before (offer (.lineEvent (if v then .asserted else .released) n) s)

/-- An asserting edge in mode SYNC (R63). -/
def syncEdge (s : State) : State :=
  let c := s.sched.clock
  if 30 ≤ c.second then
    takeBoundary (setClock { c with presc := 0 } (offer (.lineEvent .syncForward c.second) s))
  else
    offer (.lineEvent .syncBack c.second) (setClock { c with presc := 0, second := 0 } s)

/-- LINE_EDGE: the run count has reached 32, the filtered level takes the sampled level, and the edge acts under the mode
(R61 to R63). -/
def lineEdge (s : State) : State :=
  let l := s.sched.line
  if l.run = 32 then
    let l' := { l with level := !l.level, run := 0 }
    let s := { s with sched := { s.sched with line := l' } }
    match l.mode with
    | .off => s
    | .pause =>
      if l'.asserted then pauseEdge true s
      else if l.follow then pauseEdge false s
      else offer (.lineEvent .released 0) s
    | .sync => if l'.asserted then syncEdge s else s
  else s

/-- MINUTE_BOUNDARY. -/
def execMinuteBoundary (s : State) : Answer := .next (minuteBoundary s)

/-- LINE_EDGE. -/
def execLineEdge (s : State) : Answer := .next (lineEdge s)

/-- TIME_SET, code 0x0F. -/
def execTimeSet (s : State) : Answer := .next (runCommand 0x0F (atOnce timeSet) s)

/-- SCHEDULE_STAGE, code 0x10. -/
def execScheduleStage (s : State) : Answer := .next (runCommand 0x10 (atOnce scheduleStage) s)

/-- ALLOWANCE_STAGE, code 0x11. -/
def execAllowanceStage (s : State) : Answer := .next (runCommand 0x11 (atOnce allowanceStage) s)

/-- SCHEDULE_COMMIT, code 0x12. -/
def execScheduleCommit (s : State) : Answer := .next (runCommand 0x12 (atOnce scheduleCommit) s)

/-- SCHEDULE_EVALUATE, code 0x13. -/
def execScheduleEvaluate (s : State) : Answer := .next (runCommand 0x13 (atOnce scheduleEvaluate) s)

/-- GATE_SET, code 0x14. -/
def execGateSet (s : State) : Answer := .next (runCommand 0x14 (atOnce gateSet) s)

/-- GRANT, code 0x15. -/
def execGrant (s : State) : Answer := .next (runCommand 0x15 (atOnce grant) s)

/-- LINE_SET, code 0x16. -/
def execLineSet (s : State) : Answer := .next (runCommand 0x16 (atOnce lineSet) s)

end Sys2Proof.Machine
end

