-- ==== Sys2Proof/Machine/Stations.lean ====
section
/-! DEFINITION. The Station Table: STATION_SET (R29 to R31), the recent-unknown list (R34) and the usage carry list (R30, R36). -/

namespace Sys2Proof.Machine

open Sys2Proof

/-- The values of Table 2.4 at installation, the gate still to be evaluated. -/
def newStation (mac : Mac) (sched : Option (Fin 16)) (roam : Fin 4) : Station :=
  { mac := mac, sched := sched, roam := roam, reasons := Reasons.none, noUrgent := false, free := false, used := 0, extra := 0,
    active := false, lowSent := false, est := none, samples := 0, dwell := 0, peer := none, state := .settled, deadline := 0,
    away := false, lastUrgent := none, slot := none, forwarded := 0, discarded := 0, parked := 0, overflow := 0 }

/-- Carry restore: the entry for the MAC gives its minutes when its day is the current day (R30 step 1). -/
def restoreCarry (carry : List Carry) (day : Nat) (st : Station) : Station :=
  match carry.find? fun e => e.mac == st.mac with
  | none => st
  | some e => if e.day = day then { st with used := e.used, extra := e.extra } else st

/-- The LINE reason at installation (R30 step 4). -/
def lineAtInstall (sched : Schedule) (st : Station) : Bool :=
  decide (sched.line.mode = .pause) && sched.line.asserted && lineAffects sched.active st

/-- The schedule part of the gate: steps 2 and 3 of R30, and R31. -/
def scheduleGate (sched : Schedule) (st : Station) : Station :=
  (evaluate sched.clock sched.active st).withAllowance (overLimit sched.active st)

/-- The record that an installing STATION_SET leaves (R30 steps 1 to 4). -/
def installed (sched : Schedule) (carry : List Carry) (mac : Mac) (prof : Option (Fin 16)) (roam : Fin 4) : Station :=
  let st := restoreCarry carry sched.clock.day (newStation mac prof roam)
  let st := scheduleGate sched st
  { st with reasons := { st.reasons with line := lineAtInstall sched st } }

/-- An installing STATION_SET (R30). The gate begins OPEN, so a CLOSED gate is a change. -/
def installStation (i : Fin 128) (mac : Mac) (prof : Option (Fin 16)) (roam : Fin 4) (s : State) : Done :=
  let st := installed s.sched s.sta.carry mac prof roam
  let s :=
    { s with sta := { stations := vput s.sta.stations i (some st), unknown := s.sta.unknown.filter fun m => m != mac,
                      carry := s.sta.carry.filter fun e => e.mac != mac } }
  done (if st.closed then offer (.gateChange .stationSet i true st.reasons) s else s)

/-- A STATION_SET that updates profiles (R31). -/
def updateStation (i : Fin 128) (prof : Option (Fin 16)) (roam : Fin 4) (s : State) : Done :=
  let before := s.sta.stations
  done (reportGates .stationSet before (modStation i (fun st => scheduleGate s.sched { st with sched := prof, roam := roam }) s))

/-- The MAC stands in an installed record at another index (R29 step 3). -/
def macElsewhere (stations : Vector (Option Station) 128) (i : Fin 128) (mac : Mac) : Bool :=
  (List.finRange 128).any fun j => j != i && (stations[j]).any fun st => st.mac == mac

/-- STATION_SET (R29). -/
def stationSet (p : List Byte) (s : State) : Done :=
  let mac := macAt p 1
  match indexOf 128 (param1 p 0), schedOf (param1 p 7), indexOf 4 (param1 p 8) with
  | some i, some prof, some roam =>
    if isGroup mac || mac == 0 then refuse .refusedRange s
    else if macElsewhere s.sta.stations i mac then refuse .refusedDuplicate s
    else
      match s.sta.stations[i] with
      | none => installStation i mac prof roam s
      | some st => if st.mac = mac then updateStation i prof roam s else refuse .refusedState s
  | _, _, _ => refuse .refusedRange s

/-- The MAC is placed on the recent-unknown list as its newest entry, the oldest leaving a full list (R34). -/
def pushUnknown (mac : Mac) (l : List Mac) : List Mac := (if Config.unknownLimit ≤ l.length then l.tail else l) ++ [mac]

/-- A unicast transmitter MAC that no record holds: reported and listed, unless it is on the list (R34). -/
def meetUnknown (mac : Mac) (slot : Fin 16) (raw : Byte) (s : State) : State :=
  if s.sta.unknown.contains mac then s
  else
    let s := offer (.unknownStation mac slot raw) s
    { s with sta := { s.sta with unknown := pushUnknown mac s.sta.unknown } }

/-- The snapshot of R36: an entry for each installed station with used minutes above 0. -/
def carrySnapshot (stations : Vector (Option Station) 128) (day : Nat) : List Carry :=
  stationList stations fun _ st => if 0 < st.used then some { mac := st.mac, used := st.used, extra := st.extra, day := day } else none

/-- STATION_SET, code 0x05. -/
def execStationSet (s : State) : Answer := .next (runCommand 0x05 (atOnce stationSet) s)

end Sys2Proof.Machine
end

