-- ==== Sys2Proof/Machine/Rewriter.lean ====
section
/-! DEFINITION. The Descriptor Rewriter: which writes are decided (R98, R107), the disposition of one descriptor (R100 to R106) and the
decision of one status record (R107, R108), with the counts of Table 6.3. -/

namespace Sys2Proof.Machine

open Sys2Proof

/-! ### Counts -/

/-- A slot's counts changed (R109). -/
def modCounts (slot : Fin 16) (f : SlotCounts → SlotCounts) (s : State) : State :=
  { s with rew := { s.rew with counts := vmod s.rew.counts slot f } }

/-- The station of a decision, if any, changed. -/
def modResolved (station : Option (Fin 128)) (f : Station → Station) (s : State) : State :=
  match station with
  | none => s
  | some i => modStation i f s

/-! ### A descriptor and its layout -/

/-- The fields the Rewriter reads of a decided descriptor (R101, R104): buffer address, length, and the address of the
descriptor's first byte in its ring. -/
structure Descriptor where
  slot   : Fin 16
  record : WindowRec
  layout : DescProfile
  addr   : Nat
  buffer : Nat
  len    : Nat
  bytes  : List Byte

/-- The descriptor of a held write, by its window copy (R1, R7, R98). -/
def descriptorOf (w : WriteTx) : Option Descriptor :=
  match w.win with
  | none => none
  | some c =>
    match c.layout with
    | .desc p =>
      let bs := laneBytes w.data
      some { slot := c.slot, record := c.record, layout := p, addr := w.txn.addr.toNat,
             buffer := fieldIn c.record.order bs p.addrOff 4, len := fieldIn c.record.order bs p.lenOff 2, bytes := bs }
    | .plain => none
    | .status _ => none

/-- The queue number of a role in a window's map (section 5.2). -/
def roleQueue (q : QueueMap) (r : Role) : BitVec 4 :=
  match r with
  | .urgent => q.urgent
  | .normal => q.normal
  | .bulk => q.bulk

/-! ### The five steps (R100) -/

/-- What a decision answers: the bytes that leave, and the state. -/
structure Decision where
  bytes : List Byte
  state : State

/-- DISCARDED: discard flag set, queue field left as written, the slot's and the station's counts (Table 6.1). -/
def discardDescriptor (d : Descriptor) (station : Option (Fin 128)) (overflow : Bool) (s : State) : Decision :=
  let s := modCounts d.slot (fun c => { c with discarded := satInc count32 c.discarded }) s
  { bytes := setFlag d.bytes d.layout.discard,
    state := modResolved station (fun st =>
      { st with discarded := satInc count32 st.discarded, overflow := if overflow then satInc 65535 st.overflow else st.overflow }) s }

/-- PARKED: queue field set to PARK, counts, activity marked (Table 6.1, R104, R106). -/
def parkDescriptor (d : Descriptor) (i : Fin 128) (s : State) : Decision :=
  let s := modCounts d.slot (fun c => { c with parked := satInc count32 c.parked }) s
  { bytes := setQueue d.bytes d.layout d.record.queues.park,
    state := modStation i (fun st => { st with parked := satInc count32 st.parked, active := true }) s }

/-- FORWARDED: queue field set for the role, counts, activity marked (Table 6.1, R105, R106). -/
def forwardDescriptor (d : Descriptor) (role : Role) (station : Option (Fin 128)) (uncaptured unresolved : Bool) (s : State) : Decision :=
  let s := modCounts d.slot (fun c =>
    { c with forwarded := satInc count32 c.forwarded,
             uncaptured := if uncaptured then satInc count32 c.uncaptured else c.uncaptured,
             unresolved := if unresolved then satInc count32 c.unresolved else c.unresolved }) s
  { bytes := setQueue d.bytes d.layout (roleQueue d.record.queues role),
    state := modResolved station (fun st => { st with forwarded := satInc count32 st.forwarded, active := true }) s }

/-- Step 5: classification and admission, as one operation (R86, R105). -/
def classifyStep (d : Descriptor) (cap : Option Capture) (station : Option (Fin 128)) (noUrgent unresolved : Bool) (s : State) : Decision :=
  let a := classify cap d.len s.now station s.cls
  let r := admission d.slot d.len a.1 station noUrgent { s with cls := a.2 }
  forwardDescriptor d r.1 station cap.isNone unresolved r.2

/-- Step 4: handoff (R104). -/
def handoffStep (d : Descriptor) (cap : Capture) (i : Fin 128) (st : Station) (s : State) : Decision :=
  if st.state = .handoff then
    let r := parkRequest st.slot d.addr d.len d.slot s
    if r.1 then parkDescriptor d i r.2 else discardDescriptor d (some i) true r.2
  else classifyStep d (some cap) (some i) st.noUrgent false s

/-- Step 3: the gate (R103). -/
def gateStep (d : Descriptor) (cap : Capture) (i : Fin 128) (st : Station) (s : State) : Decision :=
  if st.closed then discardDescriptor d (some i) false s else handoffStep d cap i st s

/-- Step 2: the station of a unicast destination (R102). -/
def stationStep (d : Descriptor) (cap : Capture) (s : State) : Decision :=
  match findStation s.sta cap.dst with
  | none => classifyStep d (some cap) none false (!isGroup cap.dst) s
  | some i =>
    match s.sta.stations[i] with
    | none => classifyStep d (some cap) none false true s
    | some st => gateStep d cap i st s

/-- Step 1: the capture (R101). -/
def decide5 (d : Descriptor) (s : State) : Decision :=
  match consume d.buffer s.capture with
  | none => classifyStep d none none false false s
  | some (cap, c) => stationStep d cap { s with capture := c }

/-- A decided write takes its rewritten bytes and is released (R7, R99). -/
def releaseRewritten (tag : Nat) (bytes : List Byte) (s : State) : State :=
  release tag (modWrite tag (fun w => { w with data := withBytes w.data bytes }) s)

/-- The write at the front of the decision order (R99). -/
def nextHeld (s : State) : Option WriteTx :=
  match s.rew.order with
  | [] => none
  | tag :: _ => findWrite s.path tag

/-- The front of the decision order leaves it. -/
def dropHeld (s : State) : State := { s with rew := { s.rew with order := s.rew.order.tail } }

/-- DESCRIPTOR_DISPOSITION: the oldest held write, a descriptor, is decided and released (R99, R100). -/
def descriptorDisposition (s : State) : State :=
  match nextHeld s with
  | none => s
  | some w =>
    match descriptorOf w with
    | none => s
    | some d =>
      let r := decide5 d (dropHeld s)
      releaseRewritten w.tag r.bytes r.state

/-! ### Status records -/

/-- The fields the Rewriter reads of a status record (R107). -/
structure StatusRecord where
  slot   : Fin 16
  layout : StatusProfile
  mac    : Mac
  raw    : Byte
  bytes  : List Byte

/-- The status record of a held write, by its window copy. -/
def statusOf (w : WriteTx) : Option StatusRecord :=
  match w.win with
  | none => none
  | some c =>
    match c.layout with
    | .status p =>
      let bs := laneBytes w.data
      some { slot := c.slot, layout := p, mac := macAt bs p.macOff, raw := byteAt bs p.signalOff, bytes := bs }
    | .plain => none
    | .desc _ => none

/-- The sample of a resolved record is handed to the Signal Unit (R108). -/
def handSample (x : Sample) (s : State) : State := { s with sig := { s.sig with samples := s.sig.samples ++ [x] } }

/-- A record resolved to a station (Table 6.2, R108). -/
def takenStatus (r : StatusRecord) (i : Fin 128) (st : Station) (s : State) : Decision :=
  let s := handSample { station := i, mac := st.mac, raw := r.raw } s
  if st.closed then
    { bytes := setFlag r.bytes r.layout.drop,
      state := modCounts r.slot (fun c => { c with statusTaken := satInc count32 c.statusTaken, statusDropped := satInc count32 c.statusDropped }) s }
  else
    { bytes := r.bytes,
      state := modCounts r.slot (fun c => { c with statusTaken := satInc count32 c.statusTaken })
        (modStation i (fun st => { st with active := true }) s) }

/-- A record that resolves to no station (Table 6.2, R34). -/
def unknownStatus (r : StatusRecord) (s : State) : Decision :=
  let s := modCounts r.slot (fun c => { c with statusUnknown := satInc count32 c.statusUnknown }) s
  { bytes := r.bytes, state := if isGroup r.mac then s else meetUnknown r.mac r.slot r.raw s }

/-- The decision of a status record (R107). -/
def decideStatus (r : StatusRecord) (s : State) : Decision :=
  match findStation s.sta r.mac with
  | none => unknownStatus r s
  | some i =>
    match s.sta.stations[i] with
    | none => unknownStatus r s
    | some st => takenStatus r i st s

/-- STATUS_RECORD_DECISION: the oldest held write, a status record, is decided and released (R99, R107). -/
def statusDecision (s : State) : State :=
  match nextHeld s with
  | none => s
  | some w =>
    match statusOf w with
    | none => s
    | some r =>
      let d := decideStatus r (dropHeld s)
      releaseRewritten w.tag d.bytes d.state

/-- DESCRIPTOR_DISPOSITION. -/
def execDescriptorDisposition (s : State) : Answer := .next (descriptorDisposition s)

/-- STATUS_RECORD_DECISION. -/
def execStatusRecordDecision (s : State) : Answer := .next (statusDecision s)

end Sys2Proof.Machine
end

