-- ==== Sys2Proof/Machine/Signal.lean ====
section
/-! DEFINITION. The Signal Unit: samples (R115 to R117), peer records (R118 to R120), the roaming state machine (R121 to R124), the
uptime second and its deadlines (R39, R125, R134), and the commands ROAM_PROFILE_SET, NODE_SET, HANDOFF_BEGIN and HANDOFF_DECLINE
(R113, R114, R126, R127). -/

namespace Sys2Proof.Machine

open Sys2Proof

/-! ### Deadlines (R125) -/

/-- The state uses a deadline and the deadline is passed: uptime exceeds it. -/
def Station.overdue (now : Nat) (st : Station) : Bool :=
  (st.state == .candidate || st.state == .holdoff || st.state == .handoff) && decide (st.deadline < now)

/-- Some station's deadline is passed at an uptime, so that the visit has a transition to make. -/
def anyOverdue (now : Nat) (t : StationTable) : Bool := (vfind (fun o => o.any fun st => st.overdue now) t.stations).isSome

/-- UPTIME_SECOND: uptime increases by 1, wrapping after 2^32 - 1; the aging of the second is due (R39), and its visit of the stations, when
a deadline is passed (R125). -/
def uptimeSecond (s : State) : State :=
  if s.time.secondDue then
    let secs := (s.time.secs + 1) % 4294967296
    { s with time := { s.time with secs := secs, secondDue := false, agingDue := true, visitDue := anyOverdue secs s.sta } }
  else s

/-- The visit of one station (R125): none is moved whose deadline is not passed. -/
def visitStation (i : Fin 128) (s : State) : State :=
  match s.sta.stations[i] with
  | none => s
  | some st =>
    if st.overdue s.now then
      match st.state with
      | .candidate => offer (.candidateExpired i st.mac st.est) (modStation i (fun st => { st with state := .watch, dwell := 0, deadline := 0 }) s)
      | .holdoff => modStation i (fun st => { st with state := .settled, dwell := 0, deadline := 0 }) s
      | .handoff =>
        match handoffOf s.hold st with
        | none => s
        | some (k, o) => takeRelease .timedOut i st k o s
      | .settled => s
      | .watch => s
    else s

/-- The visit of the uptime second, taken whole (R125, R128): every station in ascending index. -/
def visitStations (s : State) : State :=
  let s := (List.finRange 128).foldl (fun s i => visitStation i s) s
  { s with time := { s.time with visitDue := false } }

/-- A station whose deadline is passed is in a state, so that the visit makes that state's transition. -/
def overdueIn (state : Roam) (s : State) : Bool :=
  s.sta.stations.toList.any fun o => o.any fun st => st.overdue s.now && st.state == state

/-- The visit is due and makes the transition of a state: the events of its three transitions each take it whole (log 5). -/
def visitFor (state : Roam) (s : State) : State := if visiting s && overdueIn state s then visitStations s else s

/-- CANDIDATE_EXPIRED (R125). -/
def candidateExpired (s : State) : State := visitFor .candidate s

/-- HOLDOFF_EXPIRY (R125). -/
def holdoffExpiry (s : State) : State := visitFor .holdoff s

/-- HANDOFF_TIMEOUT (R125, R134). -/
def handoffTimeout (s : State) : State := visitFor .handoff s

/-! ### Samples -/

/-- No measurement: 0, +127 or -128 (R115). -/
def invalidSample (raw : Byte) : Bool := raw.toInt == 0 || raw.toInt == 127 || raw.toInt == -128

/-- A value brought into a range. -/
def clampInt (lo hi x : Int) : Int := max lo (min hi x)

/-- A valid sample as taken: -100..-20 (R115). -/
def clampSample (raw : Byte) : Int := clampInt (-100) (-20) raw.toInt

/-- The step of the estimate for a difference `d` and a smoothing shift `k` (R116). -/
def estimateStep (d : Int) (k : Nat) : Int :=
  let q := d.tdiv (2 ^ k : Nat)
  if q = 0 ∧ d ≠ 0 then (if 0 < d then 1 else -1) else q

/-- The estimate after a clamped sample (R116). -/
def nextEstimate (est : Option Int) (x : Int) (k : Nat) : Int :=
  match est with
  | none => 16 * x
  | some e => e + estimateStep (16 * x - e) k

/-- The crossing of 16·T_weak: none, or whether it is rising (R117). -/
def crossing (est : Option Int) (now weak : Int) : Option Bool :=
  match est with
  | none => none
  | some e => if decide (e < weak) = decide (now < weak) then none else some (decide (weak ≤ now))

/-- The cross-report field selects a direction (R117). -/
def CrossReport.selects (c : CrossReport) (rising : Bool) : Bool :=
  match c with
  | .none => false
  | .both => true
  | .falling => !rising
  | .rising => rising

/-- A peer entry is expired (R120). -/
def Peer.expired (p : Peer) (now maxAge : Nat) : Bool := decide (maxAge < now - p.measuredAt)

/-- The station had urgent traffic within urgent-recent (R123 step 1). -/
def urgentRecently (prof : RoamProfile) (now : Nat) (st : Station) : Bool := st.lastUrgent.any fun t => decide (now - t ≤ prof.urgentRecent)

/-- The urgent-raised flag: set by recent urgent traffic, clear below the floor (R123). -/
def urgentRaised (prof : RoamProfile) (now : Nat) (st : Station) (e : Int) : Bool :=
  urgentRecently prof now st && decide (16 * prof.tFloor ≤ e)

/-- The required margin H_eff in dB (R123). -/
def requiredMargin (prof : RoamProfile) (raised : Bool) : Nat := if raised then prof.margin + prof.gameMargin else prof.margin

/-- The candidate test of a station in WATCH with estimate `e` (R123): the station in CANDIDATE and the report, or none. -/
def candidateTest (prof : RoamProfile) (now deadline : Nat) (i : Fin 128) (st : Station) (e : Int) : Option (Station × Report) :=
  match st.peer with
  | none => none
  | some p =>
    if p.expired now prof.peerMaxAge then none
    else
      let raised := urgentRaised prof now st e
      if (16 * requiredMargin prof raised : Nat) ≤ p.est - e then
        some ({ st with state := .candidate, deadline := deadline },
              .handoffCandidate i st.mac e p.est p.node (p.est - e) raised)
      else none

/-- The state machine for one valid sample, the estimate standing at `e` (R121 to R124): at most one transition, and the report it
makes. `deadline` is that of a station that becomes CANDIDATE now. -/
def roamStep (prof : RoamProfile) (now deadline : Nat) (i : Fin 128) (st : Station) (e : Int) : Station × Option Report :=
  match st.state with
  | .settled => if e < 16 * prof.tWeak then ({ st with state := .watch, dwell := 0 }, none) else (st, none)
  | .watch =>
    if 16 * (prof.tWeak + prof.hys) ≤ e then ({ st with state := .settled, dwell := 0 }, none)
    else
      let st := { st with dwell := satInc 63 st.dwell }
      if prof.dwell ≤ st.dwell then
        match candidateTest prof now deadline i st e with
        | some (st', r) => (st', some r)
        | none => (st, none)
      else (st, none)
  | .candidate =>
    if 16 * (prof.tWeak + prof.hys) ≤ e then
      ({ st with state := .settled, dwell := 0, deadline := 0 }, some (.candidateWithdrawn i st.mac e))
    else (st, none)
  | .handoff => (st, none)
  | .holdoff => (st, none)

/-- The SIGNAL_CROSS report of a sample, if its crossing is selected (R117). -/
def crossReport (prof : RoamProfile) (i : Fin 128) (st : Station) (x e : Int) : Option Report :=
  match crossing st.est e (16 * prof.tWeak) with
  | none => none
  | some rising => if prof.cross.selects rising then some (.signalCross rising i st.mac e x (16 * prof.tWeak)) else none

/-- A valid sample: intake, estimate update, crossing test, state machine (R115 to R124). -/
def takeSample (i : Fin 128) (st : Station) (raw : Byte) (s : State) : State :=
  let prof := s.sig.profiles[st.roam]
  let x := clampSample raw
  let e := nextEstimate st.est x prof.shift
  let r := roamStep prof s.now (s.after prof.candidateTimeout) i { st with away := false, samples := satInc 65535 st.samples, est := some e } e
  let s := { s with sig := { s.sig with samplesTaken := satInc count32 s.sig.samplesTaken } }
  offerAll ((crossReport prof i st x e).toList ++ r.2.toList) (putStation i (some r.1) s)

/-- The first handed-over sample of a station, and the list without it. -/
def pickSample (i : Nat) : List Sample → Option (Sample × List Sample)
  | [] => none
  | x :: xs =>
    if x.station.val = i then some (x, xs)
    else
      match pickSample i xs with
      | none => none
      | some (y, ys) => some (y, x :: ys)

/-- SIGNAL_SAMPLE: the oldest handed-over sample of a station is taken (R115), and none while the visit of an uptime second is due (R128,
log 5). The record is asked for the handed MAC alone, so a sample whose record was emptied and installed again with the same MAC is taken:
DESIGN CHOICE (log 31), unsafe. -/
def signalSample (i : Nat) (s : State) : State :=
  if visiting s then s
  else
    match pickSample i s.sig.samples with
    | none => s
    | some (x, rest) =>
      let s := { s with sig := { s.sig with samples := rest } }
      match s.sta.stations[x.station] with
      | none => { s with sig := { s.sig with samplesLost := satInc count32 s.sig.samplesLost } }
      | some st =>
        if st.mac ≠ x.mac then { s with sig := { s.sig with samplesLost := satInc count32 s.sig.samplesLost } }
        else if invalidSample x.raw then { s with sig := { s.sig with samplesInvalid := satInc count32 s.sig.samplesInvalid } }
        else takeSample x.station st x.raw s

/-! ### Peer records -/

/-- The replacement test of R119. -/
def peerReplaces (old : Option Peer) (new : Peer) (now maxAge : Nat) : Bool :=
  match old with
  | none => true
  | some p => p.expired now maxAge || p.node == new.node || decide (p.est < new.est)

/-- The peer entry a taken record offers (R118). -/
def peerOf (r : PeerRecord) (now : Nat) : Peer :=
  { node := r.node, est := clampInt (-1600) (-320) r.est, measuredAt := now - r.age }

/-- A complete peer record is taken at its write's reception (R118, R119). -/
def takePeer (r : PeerRecord) (s : State) : State :=
  match findStation s.sta r.mac with
  | none => { s with sig := { s.sig with peerIgnored := satInc count32 s.sig.peerIgnored } }
  | some i =>
    if 7 < r.node ∨ r.node = s.sig.node then { s with sig := { s.sig with peerIgnored := satInc count32 s.sig.peerIgnored } }
    else
      let offered := peerOf r s.now
      let s' := { s with sig := { s.sig with peerTaken := satInc count32 s.sig.peerTaken } }
      modStation i (fun st =>
        if peerReplaces st.peer offered s.now (s.sig.profiles[st.roam]).peerMaxAge then { st with peer := some offered } else st) s'

/-! ### Commands -/

/-- ROAM_PROFILE_SET (R113). -/
def roamProfileSet (p : List Byte) (s : State) : Done :=
  match indexOf 4 (param1 p 0), roamProfileAt p 1 with
  | some i, some r => done { s with sig := { s.sig with profiles := vput s.sig.profiles i r } }
  | _, _ => refuse .refusedRange s

/-- NODE_SET (R114). -/
def nodeSet (p : List Byte) (s : State) : Done :=
  let n := param1 p 0
  if n ≤ 7 then
    done (mapStations (fun st => if st.peer.any fun q => q.node == n then { st with peer := none } else st)
      { s with sig := { s.sig with node := n } })
  else refuse .refusedRange s

/-- HANDOFF_BEGIN (R126, R130). -/
def handoffBegin (p : List Byte) (s : State) : Done :=
  match indexOf 128 (param1 p 0), flagOf (param1 p 3) with
  | some i, some force =>
    match s.sta.stations[i] with
    | none => refuse .refusedState s
    | some st =>
      if st.state = .handoff then refuse .refusedState s
      else if st.state = .holdoff ∧ force = false then refuse .refusedState s
      else
        match freeSlot s.hold with
        | none => refuse .refusedFull s
        | some k =>
          let o : Occupied := { station := i, tag := BitVec.ofNat 16 (param2 p 1), start := s.now, requests := 0, list := [] }
          let deadline := s.after (s.sig.profiles[st.roam]).handoffTimeout
          let s := putSlot k (.occupied o) s
          { state := modStation i (fun st => { st with state := .handoff, deadline := deadline, slot := some k }) s, status := .done,
            result := u8 k.val }
  | _, _ => refuse .refusedRange s

/-- HANDOFF_DECLINE (R127). -/
def handoffDecline (p : List Byte) (s : State) : Done :=
  match indexOf 128 (param1 p 0) with
  | none => refuse .refusedRange s
  | some i =>
    match s.sta.stations[i] with
    | none => refuse .refusedState s
    | some st =>
      if st.state = .candidate then
        let deadline := s.after (s.sig.profiles[st.roam]).holdoff
        done (modStation i (fun st => { st with state := .holdoff, deadline := deadline, dwell := 0 }) s)
      else refuse .refusedState s

/-- UPTIME_SECOND. -/
def execUptimeSecond (s : State) : Answer := .next (uptimeSecond s)

/-- CANDIDATE_EXPIRED. -/
def execCandidateExpired (s : State) : Answer := .next (candidateExpired s)

/-- HOLDOFF_EXPIRY. -/
def execHoldoffExpiry (s : State) : Answer := .next (holdoffExpiry s)

/-- HANDOFF_TIMEOUT. -/
def execHandoffTimeout (s : State) : Answer := .next (handoffTimeout s)

/-- SIGNAL_SAMPLE. -/
def execSignalSample (station : Nat) (s : State) : Answer := .next (signalSample station s)

/-- NODE_SET, code 0x17. -/
def execNodeSet (s : State) : Answer := .next (runCommand 0x17 (atOnce nodeSet) s)

/-- ROAM_PROFILE_SET, code 0x18. -/
def execRoamProfileSet (s : State) : Answer := .next (runCommand 0x18 (atOnce roamProfileSet) s)

/-- HANDOFF_BEGIN, code 0x19. -/
def execHandoffBegin (s : State) : Answer := .next (runCommand 0x19 (atOnce handoffBegin) s)

/-- HANDOFF_DECLINE, code 0x1A. -/
def execHandoffDecline (s : State) : Answer := .next (runCommand 0x1A (atOnce handoffDecline) s)

end Sys2Proof.Machine
end

