-- ==== Sys2Proof/Machine/Command.lean ====
section
/-! DEFINITION. The Command Unit: a kind code that names no command (R160), the statistics block (R165, Table 10.4), and the responses
to its own writes: report records and the head word (R163), the statistics block (R165). -/

namespace Sys2Proof.Machine

open Sys2Proof

/-! ### Words of the statistics block (R165) -/

def wNat (n : Nat) : Word := BitVec.ofNat 32 n
def wInt (n : Int) : Word := BitVec.ofInt 32 n
def wFlag (b : Bool) : Word := if b then 1 else 0

/-- Unset, absent or none. -/
def wNone : Word := 0xFFFFFFFF#32

/-- A MAC in two words. -/
def wMac (m : Mac) : List Word :=
  [BitVec.ofNat 32 (leNat ((macBytes m).take 4)), BitVec.ofNat 32 (leNat ((macBytes m).drop 4))]

/-- A section's words as bytes. -/
def wordBytes (ws : List Word) : List Byte := ws.flatMap fun w => leBytes 4 w.toNat

/-- Words extended with 0 to a fixed number. -/
def padWords (n : Nat) (ws : List Word) : List Word := (ws ++ List.replicate n 0).take n

/-! ### Section 0, in the order of the rules in its row (log 18) -/

/-- R25. -/
def captureWords (c : CaptureUnit) : List Word :=
  [wNat c.replaced, wNat c.evicted, wNat c.captured, wNat c.records.length,
   wNat (match c.records with | [] => 0 | r :: _ => r.uptime)]

/-- R35 and R37. -/
def listWords (t : StationTable) : List Word := [wNat t.unknown.length, wNat t.carry.length]

/-- R65: SET 0, UNSET 1; polarity high 0, low 1; asserted 0, released 1 (log 17). -/
def scheduleWords (c : Schedule) : List Word :=
  [wNat c.clock.minute, wNat c.clock.second, wFlag (!c.clock.isSet),
   (match c.commit with | none => 0 | some m => m.zeroExtend 32),
   wNat c.line.mode.code, wFlag (!c.line.assertedHigh), wFlag c.line.follow, wFlag (!c.line.asserted)]

/-- R68 and R81. -/
def classifierWords (c : Classifier) : List Word :=
  c.decisions.toList.map wNat ++
    [wNat c.defaultCount, wNat c.learned, wNat c.evicted, wNat c.aged, wNat c.removed, wNat (occupiedCount c.flows),
     wNat (pinnedCount c.flows)]

/-- R92. -/
def admissionWords (a : Admission) : List Word :=
  [wNat a.demotions, wNat a.params.period, wNat a.params.threshold, wNat a.params.idleTimeout, wNat a.staged.period,
   wNat a.staged.threshold, wNat a.staged.idleTimeout, wFlag a.pending, wFlag a.activity]

/-- R129. -/
def signalWords (g : SignalUnit) : List Word :=
  [wNat g.samplesTaken, wNat g.samplesInvalid, wNat g.samplesLost, wNat g.peerTaken, wNat g.peerIgnored, wNat g.peerPartial, wNat g.node]

/-- R141. -/
def holdWords (h : HoldUnit) : List Word :=
  [wNat h.departed, wNat h.stayed, wNat h.timedOut, wNat h.cleared, wNat h.dumpFaults, wNat h.free]

/-- The record copy in eight words, or its absence. -/
def recordWords (r : Option (List Byte)) : List Word :=
  match r with
  | none => List.replicate 8 wNone
  | some bs => (List.range 8).map fun k => wNat (leNat (slice bs (4 * k) 4))

/-- How many of the n chunks are in a state (R157). -/
def chunkCountIn (g : Staging) (state : ChunkState) : Nat := (g.chunks.toList.take g.chunkCount).countP fun k => decide (k.state = state)

/-- The sweep's N, yield flag and read offset. With no sweep the spec states no value: free values (log 16). -/
def sweepWords (free : Nat) (w : Option Sweep) : List Word :=
  match w with
  | some w => [wNat w.share, wFlag w.yields, wNat w.offset]
  | none => [Config.freeWord free, Config.freeWord (free + 1), Config.freeWord (free + 2)]

/-- The staging bank. In IDLE there is none and the spec states no coding for it: a free value (log 16). -/
def stagingBankWord (free : Nat) (b : Option Bank) : Word :=
  match b with
  | some k => wNat k.code
  | none => Config.freeWord free

/-- R157. `free` is the first of four free values. The activation window stands in five words: enabled 1 or disabled 0, day mask, start,
end, Q: a DESIGN CHOICE (log 19). -/
def imageWords (free : Nat) (g : ImageUnit) : List Word :=
  [wNat g.bank.code, wNat g.trial] ++ recordWords g.record ++
    [wNat g.staging.state.code, stagingBankWord free g.staging.bank, wNat g.staging.length, g.staging.version,
     wNat g.staging.chunkCount, wNat (chunkCountIn g.staging .complete), wNat (chunkCountIn g.staging .disordered)] ++
    sweepWords (free + 1) g.staging.sweep ++
    [wFlag g.window.enabled, g.window.days.zeroExtend 32, wNat g.window.start, wNat g.window.stop, wNat g.window.quiet, wFlag g.dueSent,
     wNat g.refusedWrites, wNat g.refusedRecords, wNat g.outside]

/-- The Command Unit's own counts and ring state, and the number of installed stations (Table 10.4). -/
def commandWords (c : CommandUnit) (stations : Vector (Option Station) 128) : List Word :=
  [wNat c.ignored, wNat c.tailIgnored, wNat c.reportFaults, wNat c.lost, wNat c.head, wNat c.tail, wNat (vcount Option.isSome stations)]

/-- Section 0. -/
def section0 (s : State) : List Word :=
  captureWords s.capture ++ listWords s.sta ++ scheduleWords s.sched ++ classifierWords s.cls ++ admissionWords s.adm ++
    signalWords s.sig ++ holdWords s.hold ++ imageWords s.free s.img ++ commandWords s.cmd s.sta.stations

/-! ### Sections 1 to 18 -/

/-- The 17 words of a window slot. -/
def slotWords (c : SlotCounts) (a : AdmSlot) : List Word :=
  [wNat c.forwarded, wNat c.discarded, wNat c.parked, wNat c.uncaptured, wNat c.unresolved, wNat c.partials, wNat c.statusTaken,
   wNat c.statusDropped, wNat c.statusUnknown, wNat c.statusPartial, wNat a.admitted, wNat a.spillAllowance, wNat a.spillCap,
   wNat a.withheld, wNat a.cap, wNat a.stagedCap, wFlag a.capPending]

/-- Section 1: slots 2..15. -/
def section1 (s : State) : List Word := ((List.finRange 16).drop 2).flatMap fun i => slotWords s.rew.counts[i] s.adm.slots[i]

/-- The 8 words of a handoff slot: state FREE 0, OCCUPIED 1, DUMPING 2, and the fields of R141. The list of a DUMPING slot has moved to
the dump buffer (R135), so its length is 0. -/
def handoffWords (h : HandoffSlot) : List Word :=
  padWords 8 (match h with
    | .free => []
    | .occupied o => [1, wNat o.station.val, o.tag.zeroExtend 32, wNat o.start, wNat o.requests, wNat o.list.length]
    | .dumping d => [2, wNat d.station.val, d.tag.zeroExtend 32, wNat d.start, wNat d.requests, 0])

/-- Section 2. -/
def section2 (s : State) : List Word := s.hold.slots.toList.flatMap handoffWords

/-- The four words of a peer entry. -/
def peerWords (now maxAge : Nat) (p : Option Peer) : List Word :=
  match p with
  | none => List.replicate 4 wNone
  | some p => [wNat p.node, wInt p.est, wNat p.measuredAt, wFlag (p.expired now maxAge)]

/-- The words of an installed station: index, MAC, R106, R65, R129. -/
def installedWords (now maxAge i : Nat) (st : Station) : List Word :=
  [wNat i] ++ wMac st.mac ++ [wNat st.forwarded, wNat st.discarded, wNat st.parked, wNat st.overflow] ++
    [(match st.sched with | none => wNone | some p => wNat p.val), wNat st.reasons.code, wNat st.used, wNat st.extra, wFlag st.noUrgent,
     wFlag st.free] ++
    [(match st.est with | none => wNone | some e => wInt e), wNat st.samples, wNat st.dwell] ++ peerWords now maxAge st.peer ++
    [wNat st.state.code, wNat st.deadline, wFlag st.away]

/-- The 32 words of a station entry; an empty station's are 0. -/
def stationWords (s : State) (i : Fin 128) : List Word :=
  padWords 32 (match s.sta.stations[i] with
    | none => []
    | some st => installedWords s.now (s.sig.profiles[st.roam]).peerMaxAge i.val st)

/-- Section 3..18: eight stations. -/
def sectionStations (s : State) (sec : Nat) : List Word := (((List.finRange 128).drop (8 * (sec - 3))).take 8).flatMap (stationWords s)

/-- The words of a section (Table 10.4). -/
def sectionWords (s : State) (sec : Nat) : List Word :=
  if sec = 0 then section0 s else if sec = 1 then section1 s else if sec = 2 then section2 s else sectionStations s sec

/-! ### The clear flag -/

/-- The counts of section 0, the lost count of R162 among them. The state that the section carries is kept. -/
def clear0 (s : State) : State :=
  { s with
    capture := { s.capture with captured := 0, replaced := 0, evicted := 0 },
    cls := { s.cls with decisions := Vector.replicate 32 0, defaultCount := 0, learned := 0, evicted := 0, aged := 0, removed := 0 },
    adm := { s.adm with demotions := 0 },
    sig := { s.sig with samplesTaken := 0, samplesInvalid := 0, samplesLost := 0, peerTaken := 0, peerIgnored := 0, peerPartial := 0 },
    hold := { s.hold with departed := 0, stayed := 0, timedOut := 0, cleared := 0, dumpFaults := 0 },
    img := { s.img with refusedWrites := 0, refusedRecords := 0, outside := 0 },
    cmd := { s.cmd with ignored := 0, tailIgnored := 0, reportFaults := 0, lost := 0 } }

/-- The ten counts and the four admission counts of every slot. -/
def clear1 (s : State) : State :=
  { s with
    rew := { s.rew with counts := Vector.replicate 16 SlotCounts.zero },
    adm := { s.adm with
      slots := vmap (fun a => { a with admitted := 0, spillAllowance := 0, spillCap := 0, withheld := 0 }) s.adm.slots } }

/-- The four counts of a station (R106). -/
def clearCounts (st : Station) : Station := { st with forwarded := 0, discarded := 0, parked := 0, overflow := 0 }

/-- The counts of the eight stations of a section. -/
def clearStations (sec : Nat) (s : State) : State :=
  (((List.finRange 128).drop (8 * (sec - 3))).take 8).foldl (fun s i => modStation i clearCounts s) s

/-- The counts that a section carries are cleared. -/
def clearSection (sec : Nat) (s : State) : State :=
  if sec = 0 then clear0 s else if sec = 1 then clear1 s else if sec = 2 then s else clearStations sec s

/-! ### STATS -/

/-- The 128-byte own writes of a section from an address on. -/
def statsWrites : Nat → Nat → List Byte → List OwnWrite
  | 0, _, _ => []
  | n + 1, addr, bs => { kind := .stats, addr := addr, data := bs.take 128 } :: statsWrites n (addr + 128) (bs.drop 128)

/-- How many 128-byte writes a length takes. -/
def statsCount (len : Nat) : Nat := (len + 127) / 128

/-- The values of a section are taken, its counts cleared if asked, and its writes issued in order (R165). -/
def takeSection (sec : Nat) (clear : Bool) (s : State) : State :=
  let bs := wordBytes (sectionWords s sec)
  let n := statsCount bs.length
  let s := { s with free := if sec = 0 then s.free + 4 else s.free }
  let s := if clear then clearSection sec s else s
  setExecuting (.stats sec bs.length n false)
    ((statsWrites n (s.control + Config.statsOffset) bs).foldl (fun s w => request w s) s)

/-- STATS (R165). The COMPLETION follows the responses. -/
def stats (p : List Byte) (s : State) : State :=
  match flagOf (param1 p 1) with
  | none => completeCommand .refusedRange [] s
  | some clear => if param1 p 0 ≤ 18 then takeSection (param1 p 0) clear s else completeCommand .refusedRange [] s

/-- A response of a write of the section (R165). -/
def statsResponse (tag : Nat) (resp : Resp) (s : State) : State :=
  match ownKind s tag, s.cmd.executing with
  | some .stats, .stats sec bytes awaited fault =>
    let fault' := fault || resp != .okay
    let s := dropOwn tag s
    if awaited ≤ 1 then completeCommand .done [] (offer (.statsWritten fault' sec bytes) s)
    else setExecuting (.stats sec bytes (awaited - 1) fault') s
  | _, _ => s

/-! ### A code that names no command -/

/-- The oldest command when its kind code is outside 0x01..0x20 and the Command Unit is free: REFUSED_UNKNOWN (R160). -/
def unknownCommand (s : State) : State :=
  match s.cmd.executing, s.cmd.queue with
  | .idle, c :: _ => if 1 ≤ (byteAt c 0).toNat ∧ (byteAt c 0).toNat ≤ 0x20 then s else completeCommand .refusedUnknown [] s
  | _, _ => s

/-! ### Report records and the head word -/

/-- The oldest waiting report, if any, is written next (R163). -/
def writeNext (s : State) : State :=
  match s.cmd.waiting with
  | [] => s
  | w :: _ => requestReport w s

/-- A fault of the ring's own writes (R163). -/
def countReportFault (s : State) : State := { s with cmd := { s.cmd with reportFaults := satInc count32 s.cmd.reportFaults } }

/-- The report whose write has answered leaves the waiting list. -/
def popWaiting (s : State) : State := { s with cmd := { s.cmd with waiting := s.cmd.waiting.tail } }

/-- H advances, in arithmetic modulo 256. -/
def advanceHead (s : State) : State := { s with cmd := { s.cmd with head := (s.cmd.head + 1) % Config.ringSize } }

/-- The response to a report record's write (R163). -/
def reportResponse (tag : Nat) (resp : Resp) (s : State) : State :=
  if ownKind s tag = some .report then
    let s := popWaiting (dropOwn tag s)
    if resp = .okay then writeNext (requestHead (advanceHead s)) else writeNext (countReportFault s)
  else s

/-- The response to a head-word write (R163). -/
def headResponse (tag : Nat) (resp : Resp) (s : State) : State :=
  if ownKind s tag = some .head then
    let s := dropOwn tag s
    if resp = .okay then s else countReportFault s
  else s

/-- UNKNOWN_COMMAND. -/
def execUnknownCommand (s : State) : Answer := .next (unknownCommand s)

/-- STATS, code 0x20. -/
def execStats (s : State) : Answer := .next (runCommand 0x20 stats s)

/-- STATS_WRITE_RESPONSE. -/
def execStatsWriteResponse (tag : Nat) (resp : Resp) (s : State) : Answer := .next (statsResponse tag resp s)

/-- REPORT_RECORD_RESPONSE. -/
def execReportRecordResponse (tag : Nat) (resp : Resp) (s : State) : Answer := .next (reportResponse tag resp s)

/-- HEAD_WORD_RESPONSE. -/
def execHeadWordResponse (tag : Nat) (resp : Resp) (s : State) : Answer := .next (headResponse tag resp s)

end Sys2Proof.Machine
end

