-- ==== Sys2Proof/Machine/Path.lean ====
section
/-! DEFINITION. The Path Unit: arrivals (R1, R2, R4, R6), the reception of a write's last data beat and what its owner makes of it (R2,
R3, R8), the downstream arbiter (R14, R15), and the responses of pass-through transactions (R5, R6). -/

namespace Sys2Proof.Machine

open Sys2Proof

/-! ### Arrival of a write -/

/-- An older write of the ID stands in the lists (R4). -/
def olderListed (p : PathUnit) (id : AxiId) : Bool := p.writes.any fun w => w.listed && w.txn.id == id

/-- A place is kept for an older write of the ID (log 10). -/
def olderReserved (p : PathUnit) (id : AxiId) : Bool := p.writes.any fun w => w.reserved && w.txn.id == id

/-- The upstream write address channel accepts a write: the port is open (R16) and fewer than 16 writes are in the lists (R4). -/
def acceptsWrite (s : State) : Bool := decide (s.boot = .opened) && decide (listedCount s.path < Config.listLimit)

/-- A write that arrives takes a handle and keeps the result of its lookup (R1). It stands in the list of its ID when an older write of its
ID does, or when it is one for the boot record sector, which always needs a decision; a place is kept for it when its data beats, or those
of an older write of its ID, may yet show that it is to be entered (R4, log 10). -/
def arrivedWrite (a : TxnAddr) (stage : Stage) (s : State) : WriteTx :=
  let win := lookupWindow s.win a.addr.toNat
  let listed := olderListed s.path a.id || (stage == .arriving && inSector a.addr.toNat)
  { tag := s.path.nextTag, txn := a, win := win, data := [], stage := stage, listed := listed,
    reserved := !listed && (olderReserved s.path a.id || (stage == .arriving && mayHold win a)) }

/-- The write joins the writes inside the part. -/
def enterWrite (w : WriteTx) (s : State) : State :=
  { s with path := { s.path with writes := s.path.writes ++ [w], nextTag := s.path.nextTag + 1 } }

/-- UPSTREAM_WRITE_ARRIVAL (R1, R4, R6, R143). While the channel accepts nothing the write waits outside (log 1). -/
def writeArrival (a : TxnAddr) (s : State) : State :=
  if acceptsWrite s then
    match refusedRegion s.img.bank a.addr.toNat with
    | some region => reportRefusal region a (enterWrite (arrivedWrite a (.refused false) s) s)
    | none => enterWrite (arrivedWrite a .arriving s) s
  else s

/-- UPSTREAM_READ_ARRIVAL (R1, R2, R142). -/
def readArrival (a : TxnAddr) (s : State) : State :=
  if s.boot = .opened then
    let r : ReadTx :=
      { tag := s.path.nextTag, txn := a, win := lookupWindow s.win a.addr.toNat, downAddr := readAddress s.img.bank a.addr.toNat,
        issued := false }
    { s with path := { s.path with reads := s.path.reads ++ [r], nextTag := s.path.nextTag + 1 } }
  else s

/-! ### Reception -/

/-- What the reception of a write is, by where it falls: the specialised rows of the table, and every other (log 9). -/
inductive Reception where
  | refusal | record | staging | descriptor | status | frameStart | peer | command | commandOther | tail | plain
  deriving DecidableEq, Repr

/-- The kind of a reception inside the control window (Table 0.4, R158, R164). -/
def controlReception (base : Nat) (t : TxnAddr) (d : List Lane) : Reception :=
  if complete base Config.commandAreaSize 32 t d then .command
  else if inRange base Config.commandAreaSize t.addr.toNat then .commandOther
  else if complete (base + Config.tailOffset) 4 4 t d then .tail
  else .plain

/-- The kind of a reception in a window (Table 1.1). -/
def windowReception (c : WinCopy) (t : TxnAddr) (d : List Lane) : Reception :=
  match c.record.kind with
  | .txRing => .descriptor
  | .rxStatus => .status
  | .frameBuffer => if frameStarts c.record t then .frameStart else .plain
  | .peer => if complete c.record.base c.record.size 16 t d then .peer else .plain
  | .control => controlReception c.record.base t d
  | .bootAlias => .plain
  | .off => .plain

/-- The kind of the reception of write `w` with data `d`. -/
def receptionOf (img : ImageUnit) (w : WriteTx) (d : List Lane) : Reception :=
  if w.isRefused then .refusal
  else if inSector w.txn.addr.toNat then .record
  else if inStaging img w.txn.addr.toNat then .staging
  else
    match w.win with
    | none => .plain
    | some c => windowReception c w.txn d

/-- The write's data beats are inside the part. -/
def storeData (tag : Nat) (d : List Lane) (s : State) : State := modWrite tag (fun w => { w with data := d }) s

/-- A write that needs no decision passes: it is ready at its reception (R2, R14), and no place of the lists is kept for it (R4). -/
def passWrite (tag : Nat) (d : List Lane) (s : State) : State := settleLists (release tag (storeData tag d s))

/-- A write is held for the Descriptor Rewriter, behind those received before it (R3, R99). -/
def holdForRewriter (tag : Nat) (d : List Lane) (s : State) : State :=
  let s := hold tag (storeData tag d s)
  { s with rew := { s.rew with order := s.rew.order ++ [tag] } }

/-- A write into the boot record sector: held for its check when complete for the record, refused otherwise (R143, R146). -/
def receiveRecord (w : WriteTx) (d : List Lane) (s : State) : State :=
  if recordComplete w.txn d then
    let s := hold w.tag (storeData w.tag d s)
    { s with img := { s.img with checks := s.img.checks ++ [w.tag] } }
  else reportRefusal .recordSector w.txn (refuseWrite w.tag s)

/-- A write into a TX_RING window (R98). -/
def receiveDescriptor (w : WriteTx) (d : List Lane) (s : State) : State :=
  match w.win with
  | none => passWrite w.tag d s
  | some c =>
    match c.layout with
    | .desc p =>
      if complete c.record.base c.record.size p.size w.txn d then
        if flagSet (laneBytes d) p.owner then holdForRewriter w.tag d s else passWrite w.tag d s
      else passWrite w.tag d (modCounts c.slot (fun k => { k with partials := satInc count32 k.partials }) s)
    | .plain => passWrite w.tag d s
    | .status _ => passWrite w.tag d s

/-- A write into an RX_STATUS window (R107). -/
def receiveStatus (w : WriteTx) (d : List Lane) (s : State) : State :=
  match w.win with
  | none => passWrite w.tag d s
  | some c =>
    match c.layout with
    | .status p =>
      if complete c.record.base c.record.size p.size w.txn d then
        if flagSet (laneBytes d) p.validFlag then holdForRewriter w.tag d s else passWrite w.tag d s
      else passWrite w.tag d (modCounts c.slot (fun k => { k with statusPartial := satInc count32 k.statusPartial }) s)
    | .plain => passWrite w.tag d s
    | .desc _ => passWrite w.tag d s

/-- A frame-start write is copied as it passes (R19 to R25). -/
def receiveFrame (w : WriteTx) (d : List Lane) (s : State) : State :=
  passWrite w.tag d { s with capture := captureFrame w.txn.addr.toNat s.now d s.capture }

/-- A peer record is read as it passes, in the byte order of its window (R118). -/
def receivePeer (w : WriteTx) (d : List Lane) (s : State) : State :=
  match w.win with
  | none => passWrite w.tag d s
  | some c => passWrite w.tag d (takePeer (peerRecordOf c.record.order (laneBytes d)) s)

/-- A command write: captured as it passes, or held while the queue is full (R158, R159). -/
def receiveCommand (w : WriteTx) (d : List Lane) (s : State) : State :=
  if s.cmd.queue.length < Config.queueLimit then passWrite w.tag d (capture (laneBytes d) s)
  else
    let s := hold w.tag (storeData w.tag d s)
    { s with cmd := { s.cmd with held := s.cmd.held ++ [w.tag] } }

/-- Any other write into the command area passes and is reported (R158). -/
def receiveIgnored (w : WriteTx) (d : List Lane) (s : State) : State :=
  passWrite w.tag d
    (offer (.cmdIgnored (w.txn.addr.toNat - s.control) w.txn.len w.txn.id)
      { s with cmd := { s.cmd with ignored := satInc count32 s.cmd.ignored } })

/-- A tail value lies between the old tail and the head (R164). -/
def tailAccepted (c : CommandUnit) (v : Nat) : Bool :=
  decide (v < 256) && decide ((v + 256 - c.tail) % 256 ≤ (c.head + 256 - c.tail) % 256)

/-- The tail word is snooped (R164): an accepted value becomes T and takes step 1 of R162. -/
def snoopTail (v : Nat) (s : State) : State :=
  if tailAccepted s.cmd v then offerLost { s with cmd := { s.cmd with tail := v } }
  else { s with cmd := { s.cmd with tailIgnored := satInc count32 s.cmd.tailIgnored } }

/-- The tail word's write passes in every case (R164). -/
def receiveTail (w : WriteTx) (d : List Lane) (s : State) : State := passWrite w.tag d (snoopTail (leNat (laneBytes d)) s)

/-- A write into the staging bank is tracked as it passes (R149). -/
def receiveStaging (w : WriteTx) (d : List Lane) (s : State) : State := passWrite w.tag d (trackWrite w.txn d s)

/-- A refused write's data beats are discarded (R6). -/
def receiveRefused (w : WriteTx) (s : State) : State := modWrite w.tag (fun w => { w with stage := .refused true, data := [] }) s

/-- A write into a PEER window that is complete for no record (R118). -/
def countPeerPartial (w : WriteTx) (s : State) : State :=
  if w.win.any fun c => c.record.kind == .peer then { s with sig := { s.sig with peerPartial := satInc count32 s.sig.peerPartial } }
  else s

/-- Every other write passes. -/
def receivePlain (w : WriteTx) (d : List Lane) (s : State) : State := passWrite w.tag d (countPeerPartial w s)

/-- What each kind of reception does. -/
def receiveAs (kind : Reception) (w : WriteTx) (d : List Lane) (s : State) : State :=
  match kind with
  | .refusal => receiveRefused w s
  | .record => receiveRecord w d s
  | .staging => receiveStaging w d s
  | .descriptor => receiveDescriptor w d s
  | .status => receiveStatus w d s
  | .frameStart => receiveFrame w d s
  | .peer => receivePeer w d s
  | .command => receiveCommand w d s
  | .commandOther => receiveIgnored w d s
  | .tail => receiveTail w d s
  | .plain => receivePlain w d s

/-- The write a tag names, when its data beats are still awaited and `d` is as long as the write. -/
def awaited (tag : Nat) (d : List Lane) (s : State) : Option WriteTx :=
  match findWrite s.path tag with
  | none => none
  | some w => if (w.stage = .arriving ∨ w.stage = .refused false) ∧ d.length = w.txn.len then some w else none

/-- The last data beat of a write is accepted; `wanted` selects the kinds of reception that the event is (log 9). -/
def receive (wanted : Reception → Bool) (tag : Nat) (d : List Lane) (s : State) : State :=
  match awaited tag d s with
  | none => s
  | some w => if wanted (receptionOf s.img w d) then receiveAs (receptionOf s.img w d) w d s else s

/-! ### The write side (R14) -/

/-- An own write is issued. -/
def grantOwn (o : OwnWrite) (rest : List OwnWrite) (s : State) : State :=
  emit (.downOwnWrite s.path.nextTag o.addr o.data)
    { s with own := { requests := rest, issued := s.own.issued ++ [(s.path.nextTag, o.kind)] },
             path := { s.path with nextTag := s.path.nextTag + 1 } }

/-- No older write of the ID is still to leave (R4). `ws` is in arrival order. -/
def oldestInside (ws : List WriteTx) (tag : Nat) (id : AxiId) : Bool :=
  (ws.takeWhile fun w => w.tag != tag).all fun w => !(w.inside && w.txn.id == id)

/-- A ready write that may leave now. -/
def leaves (p : PathUnit) (tag : Nat) : Bool :=
  match findWrite p tag with
  | none => false
  | some w => oldestInside p.writes tag w.txn.id

/-- A pass-through write is issued and leaves its list (R4). -/
def grantWrite (w : WriteTx) (s : State) : State :=
  let s := modWrite w.tag (fun w => { w with stage := .issued, listed := false, reserved := false }) s
  let s := settleLists { s with path := { s.path with ready := s.path.ready.filter fun t => t != w.tag } }
  emit (.downWrite w.tag w.txn.addr.toNat w.txn w.data) s

/-- WRITE_SIDE_GRANT (R14). -/
def writeGrant (s : State) : State :=
  match s.own.requests with
  | o :: rest => grantOwn o rest s
  | [] =>
    match (s.path.ready.find? fun t => leaves s.path t).bind (findWrite s.path) with
    | none => s
    | some w => grantWrite w s

/-! ### The read side (R15) -/

/-- The current sweep when its read is waiting and eligible. -/
def eligibleSweep (s : State) : Option Sweep :=
  match s.img.staging.sweep with
  | none => none
  | some w => if w.step = .waiting ∧ ¬(w.yields = true ∧ s.adm.activity = true) then some w else none

/-- The boot-record read is issued (R16). -/
def grantBoot (s : State) : State :=
  emit (.downOwnRead s.path.nextTag Config.sectorBase Config.recordSize)
    { s with boot := .reading s.path.nextTag, path := { s.path with nextTag := s.path.nextTag + 1 } }

/-- The sweep's read is issued and W becomes 0 (R15, R152). -/
def grantSweep (w : Sweep) (s : State) : State :=
  let bank := match s.img.staging.bank with | some k => k | none => s.img.bank.other
  let tag := s.path.nextTag
  emit (.downOwnRead tag (bank.base + w.offset) Config.sweepRead)
    (setSweep { w with step := .reading tag } { s with path := { s.path with nextTag := tag + 1, sweepWait := 0 } })

/-- The first read that has arrived and is not issued. -/
def nextRead (p : PathUnit) : Option ReadTx := p.reads.find? fun r => !r.issued

/-- A pass-through read is issued; W counts the grant when a sweep read was waiting and eligible (R15). -/
def grantRead (r : ReadTx) (counts : Bool) (s : State) : State :=
  emit (.downRead r.tag r.downAddr r.txn)
    { s with path := { s.path with
      reads := s.path.reads.map fun q => if q.tag = r.tag then { q with issued := true } else q,
      sweepWait := if counts then satInc 64 s.path.sweepWait else s.path.sweepWait } }

/-- READ_SIDE_GRANT (R15). -/
def readGrant (s : State) : State :=
  if s.boot = .requesting then grantBoot s
  else
    match eligibleSweep s, nextRead s.path with
    | some w, some r => if w.share ≤ s.path.sweepWait then grantSweep w s else grantRead r true s
    | some w, none => grantSweep w s
    | none, some r => grantRead r false s
    | none, none => s

/-! ### Responses (R5, R6) -/

/-- Answered writes of an ID return their responses from the oldest on, as far as every older write has had its own. -/
def flushWrites (id : AxiId) : List WriteTx → List WriteTx × List PortEvent
  | [] => ([], [])
  | w :: ws =>
    if w.txn.id = id then
      match w.stage with
      | .answered r => ((flushWrites id ws).1, .upWriteResp w.tag id r :: (flushWrites id ws).2)
      | .arriving => (w :: ws, [])
      | .held => (w :: ws, [])
      | .ready => (w :: ws, [])
      | .issued => (w :: ws, [])
      | .refused _ => (w :: ws, [])
    else (w :: (flushWrites id ws).1, (flushWrites id ws).2)

/-- The responses of an ID that may return upstream do. -/
def flush (id : AxiId) (s : State) : State :=
  { s with path := { s.path with writes := (flushWrites id s.path.writes).1 }, ports := s.ports ++ (flushWrites id s.path.writes).2 }

/-- The response to a forwarded write (R5). -/
def writeResponse (tag : Nat) (r : Resp) (s : State) : State :=
  match findWrite s.path tag with
  | none => s
  | some w => if w.stage = .issued then flush w.txn.id (modWrite tag (fun w => { w with stage := .answered r }) s) else s

/-- The data and responses of a forwarded read (R5). -/
def readResponse (tag : Nat) (resps : List Resp) (data : List Byte) (s : State) : State :=
  match s.path.reads.find? fun r => r.tag == tag && r.issued with
  | none => s
  | some r =>
    emit (.upReadResp tag r.txn.id resps data)
      { s with path := { s.path with reads := s.path.reads.filter fun q => q.tag != tag } }

/-- DOWNSTREAM_RESPONSE (R5). -/
def downResponse (tag : Nat) (resp : DownResp) (s : State) : State :=
  match resp with
  | .write r => writeResponse tag r s
  | .read resps data => readResponse tag resps data s

/-- No older write of the ID awaits its response. `ws` is in arrival order. -/
def oldestOfId (ws : List WriteTx) (tag : Nat) (id : AxiId) : Bool :=
  (ws.takeWhile fun w => w.tag != tag).all fun w => w.txn.id != id

/-- REFUSED_WRITE_RESPONSE (R5, R6). -/
def refusedResponse (tag : Nat) (s : State) : State :=
  match findWrite s.path tag with
  | none => s
  | some w =>
    if w.stage = .refused true ∧ oldestOfId s.path.writes tag w.txn.id = true then
      flush w.txn.id
        (emit (.upWriteResp tag w.txn.id .slverr) { s with path := { s.path with writes := s.path.writes.filter fun q => q.tag != tag } })
    else s

/-- UPSTREAM_WRITE_ARRIVAL. -/
def execUpstreamWriteArrival (a : TxnAddr) (s : State) : Answer := .next (writeArrival a s)

/-- UPSTREAM_READ_ARRIVAL. -/
def execUpstreamReadArrival (a : TxnAddr) (s : State) : Answer := .next (readArrival a s)

/-- UPSTREAM_WRITE_RECEIVED: the reception of any write. -/
def execUpstreamWriteReceived (tag : Nat) (d : List Lane) (s : State) : Answer := .next (receive (fun _ => true) tag d s)

/-- FRAME_START_WRITE. -/
def execFrameStartWrite (tag : Nat) (d : List Lane) (s : State) : Answer := .next (receive (fun k => k == .frameStart) tag d s)

/-- PEER_RECORD. -/
def execPeerRecord (tag : Nat) (d : List Lane) (s : State) : Answer := .next (receive (fun k => k == .peer) tag d s)

/-- COMMAND_CAPTURE. -/
def execCommandCapture (tag : Nat) (d : List Lane) (s : State) : Answer := .next (receive (fun k => k == .command) tag d s)

/-- TAIL_WORD_WRITE. -/
def execTailWordWrite (tag : Nat) (d : List Lane) (s : State) : Answer := .next (receive (fun k => k == .tail) tag d s)

/-- STAGING_WRITE_TRACKED. -/
def execStagingWriteTracked (tag : Nat) (d : List Lane) (s : State) : Answer := .next (receive (fun k => k == .staging) tag d s)

/-- WRITE_SIDE_GRANT. -/
def execWriteSideGrant (s : State) : Answer := .next (writeGrant s)

/-- READ_SIDE_GRANT. -/
def execReadSideGrant (s : State) : Answer := .next (readGrant s)

/-- DOWNSTREAM_RESPONSE. -/
def execDownstreamResponse (tag : Nat) (resp : DownResp) (s : State) : Answer := .next (downResponse tag resp s)

/-- REFUSED_WRITE_RESPONSE. -/
def execRefusedWriteResponse (tag : Nat) (s : State) : Answer := .next (refusedResponse tag s)

end Sys2Proof.Machine
end

