-- ==== Sys2Proof/Machine/Windows.lean ====
section
/-! DEFINITION. The commands of the Window Decoder: WINDOW_SET (R10), WINDOW_CLEAR (R11), DESC_PROFILE_SET (R12) and
STATUS_PROFILE_SET (R13). -/

namespace Sys2Proof.Machine

open Sys2Proof

/-- Slots software declares (section 1.4). -/
def softSlot (n : Nat) : Option (Fin 16) := if 2 ≤ n then indexOf 16 n else none

/-- Queue numbers 0..15 (R10 step 3). -/
def queueMapOf (qs : List Nat) : Option QueueMap :=
  match qs with
  | [u, n, b, p] =>
    if u < 16 ∧ n < 16 ∧ b < 16 ∧ p < 16 then some ⟨BitVec.ofNat 4 u, BitVec.ofNat 4 n, BitVec.ofNat 4 b, BitVec.ofNat 4 p⟩ else none
  | _ => none

/-- The window record a WINDOW_SET asks for, or none when a check of R10 steps 1 to 3 fails (each of them completes
REFUSED_RANGE). Fields the kind does not use are not checked and are stored as zero. -/
def windowRecordOf (w : Windows) (p : WindowParams) : Option WindowRec :=
  if rangeOk p.base p.size then
    match windowKindOf p.kind with
    | some .txRing =>
      match byteOrderOf p.order, indexOf 4 p.profile, queueMapOf p.queues with
      | some order, some prof, some q =>
        if w.desc[prof].valid then
          some { WindowRec.off with kind := .txRing, base := p.base, size := p.size, order := order, profile := prof, queues := q }
        else none
      | _, _, _ => none
    | some .rxStatus =>
      match byteOrderOf p.order, indexOf 4 p.profile with
      | some order, some prof =>
        if w.status[prof].valid then
          some { WindowRec.off with kind := .rxStatus, base := p.base, size := p.size, order := order, profile := prof }
        else none
      | _, _ => none
    | some .frameBuffer =>
      if strideOk p.stride then
        some { WindowRec.off with kind := .frameBuffer, base := p.base, size := p.size, stride := p.stride, headroom := p.headroom }
      else none
    | some .peer =>
      match byteOrderOf p.order with
      | some order => some { WindowRec.off with kind := .peer, base := p.base, size := p.size, order := order }
      | none => none
    | _ => none
  else none

/-- The range shares a byte with an enabled slot other than the one being set (R10 step 4). -/
def overlapsOther (w : Windows) (slot : Fin 16) (base size : Nat) : Bool :=
  (List.finRange 16).any fun i =>
    i != slot && w.slots[i].kind != .off && decide (base < w.slots[i].base + w.slots[i].size) && decide (w.slots[i].base < base + size)

/-- A window record written. -/
def putWindow (slot : Fin 16) (r : WindowRec) (s : State) : State := { s with win := { s.win with slots := vput s.win.slots slot r } }

/-- R10. -/
def windowSet (p : List Byte) (s : State) : Done :=
  let q := windowParams p
  match softSlot q.slot, windowRecordOf s.win q with
  | some slot, some r => if overlapsOther s.win slot r.base r.size then refuse .refusedOverlap s else done (putWindow slot r s)
  | _, _ => refuse .refusedRange s

/-- R11. -/
def windowClear (p : List Byte) (s : State) : Done :=
  match softSlot (param1 p 0) with
  | some slot => done (putWindow slot WindowRec.off s)
  | none => refuse .refusedRange s

/-- R12. -/
def descProfileSet (p : List Byte) (s : State) : Done :=
  match indexOf 4 (param1 p 0), descProfileOf p 1 with
  | some i, some d =>
    if d.ok then done { s with win := { s.win with desc := vput s.win.desc i d } } else refuse .refusedRange s
  | _, _ => refuse .refusedRange s

/-- R13. -/
def statusProfileSet (p : List Byte) (s : State) : Done :=
  match indexOf 4 (param1 p 0), statusProfileOf p 1 with
  | some i, some d =>
    if d.ok then done { s with win := { s.win with status := vput s.win.status i d } } else refuse .refusedRange s
  | _, _ => refuse .refusedRange s

/-- WINDOW_SET, code 0x01. -/
def execWindowSet (s : State) : Answer := .next (runCommand 0x01 (atOnce windowSet) s)

/-- WINDOW_CLEAR, code 0x02. -/
def execWindowClear (s : State) : Answer := .next (runCommand 0x02 (atOnce windowClear) s)

/-- DESC_PROFILE_SET, code 0x03. -/
def execDescProfileSet (s : State) : Answer := .next (runCommand 0x03 (atOnce descProfileSet) s)

/-- STATUS_PROFILE_SET, code 0x04. -/
def execStatusProfileSet (s : State) : Answer := .next (runCommand 0x04 (atOnce statusProfileSet) s)

end Sys2Proof.Machine
end

