-- ==== Sys2Proof/Machine/Reset.lean ====
section
/-! DEFINITION. The two resets (R17, R18, R36, R41), their release (R16), the responses of abandoned transactions (R17), the boot-record
read (R16, R145), and the tick (R39, R40, R61, R82). -/

namespace Sys2Proof.Machine

open Sys2Proof

/-! ### Assertion -/

/-- The tags of the transactions issued downstream and not yet answered (R17). -/
def outstanding (s : State) : List Nat :=
  s.path.abandoned ++ (s.path.writes.filter fun w => decide (w.stage = .issued)).map WriteTx.tag ++
    (s.path.reads.filter ReadTx.issued).map ReadTx.tag ++ s.own.issued.map Prod.fst ++
    (match s.boot with
     | .reading tag => [tag]
     | .closed => []
     | .draining => []
     | .requesting => []
     | .opened => []) ++
    (match s.img.staging.sweep with
     | some { step := .reading tag, .. } => [tag]
     | _ => []) ++
    s.img.staging.stale

/-- Every block at its state after a reset, with the pins, and with the carry list, the clock of week, its pending boundary and the trial
count that the kind of reset leaves (R17, R18, R38, R41, R157). -/
def resetBlocks (pins : Pins) (carry : List Carry) (clock : Clock) (due : Bool) (trial : Nat) (s : State) : State :=
  { pending := s.pending, pins := pins, boot := .closed, path := PathUnit.initial (outstanding s) s.path.nextTag, own := OwnPort.initial,
    win := Windows.initial s.pins.ctlSel, capture := CaptureUnit.initial, sta := StationTable.initial carry, time := Uptime.initial,
    sched := Schedule.initial clock due, cls := Classifier.initial, adm := Admission.initial, rew := Rewriter.initial,
    sig := SignalUnit.initial, hold := HoldUnit.initial, img := ImageUnit.initial trial, cmd := CommandUnit.initial, ports := s.ports,
    free := s.free }

/-- POWER_ON_RESET: POR_N is asserted (R17, R36, R41, R145). -/
def powerOnReset (s : State) : State :=
  if s.pins.por then s else resetBlocks { s.pins with por := true } [] Clock.initial false 0 s

/-- WARM_RESET: RST_N is asserted (R17, R36, R41, R145). -/
def warmReset (s : State) : State :=
  if s.pins.rst then s
  else
    resetBlocks { s.pins with rst := true } (carrySnapshot s.sta.stations s.sched.clock.day) s.sched.clock s.sched.minuteDue s.img.trial s

/-! ### Release -/

/-- One reset pin released. -/
def Pins.release (p : Pins) (pin : ResetPin) (sel : BitVec 2) : Pins :=
  match pin with
  | .por => { p with por := false, ctlSel := sel }
  | .rst => { p with rst := false, ctlSel := sel }

/-- The pin is asserted. -/
def Pins.asserted (p : Pins) (pin : ResetPin) : Bool :=
  match pin with
  | .por => p.por
  | .rst => p.rst

/-- RESET_RELEASE: CTL_SEL is sampled, slot 0 takes its base, and the start-up sequence begins when no reset is left asserted (R16). -/
def resetRelease (pin : ResetPin) (sel : BitVec 2) (s : State) : State :=
  if s.pins.asserted pin then
    let pins := s.pins.release pin sel
    putWindow 0 (WindowRec.control sel) { s with pins := pins, boot := if pins.por || pins.rst then .closed else .draining }
  else s

/-- ABANDONED_RESPONSE: accepted and discarded (R17). -/
def abandonedResponse (tag : Nat) (s : State) : State :=
  { s with path := { s.path with abandoned := s.path.abandoned.filter fun t => t != tag } }

/-- BOOT_RECORD_READ_ISSUE: after the last response of an abandoned transaction the boot-record read requests the read side (R16,
R17). -/
def bootReadIssue (s : State) : State :=
  if s.boot = .draining ∧ s.path.abandoned = [] then { s with boot := .requesting } else s

/-! ### The start-up decision (R145) -/

/-- What Table 9.3 decides, with the fault when there is one and the record copy when there is none. -/
structure StartUp where
  bank     : Bank
  trial    : Nat
  reverted : Bool
  cause    : BootCause
  fault    : Option RecordFault
  record   : Option (List Byte)

/-- The bank a well-formed record names in a byte. -/
def namedBank (b : Byte) : Bank := (bankOf b).getD .a

/-- The fault of the read or of the record (R144, R145). -/
def readFault (resps : List Resp) (bs : List Byte) : Option RecordFault :=
  if resps.all fun r => r == .okay then recordFault bs else some .readError

/-- Table 9.3. -/
def startUp (trial : Nat) (resps : List Resp) (bs : List Byte) : StartUp :=
  match readFault resps bs with
  | some f => { bank := .a, trial := trial, reverted := false, cause := .invalid, fault := some f, record := none }
  | none =>
    if recTrial bs = 0 then
      { bank := namedBank (recSelected bs), trial := 0, reverted := false, cause := .normal, fault := none, record := some bs }
    else
      let count := satInc 255 trial
      if count ≤ 3 then
        { bank := namedBank (recSelected bs), trial := count, reverted := false, cause := .trial, fault := none, record := some bs }
      else { bank := namedBank (recPrevious bs), trial := count, reverted := true, cause := .trial, fault := none, record := some bs }

/-- BOOT_STATUS of a decision (R145). -/
def StartUp.report (d : StartUp) : Report :=
  .bootStatus d.cause d.bank d.trial d.reverted d.fault (match d.record with | none => 0 | some bs => recVersionA bs)
    (match d.record with | none => 0 | some bs => recVersionB bs)

/-- The decision taken: the port opens, the head word is written with H, and BOOT_STATUS follows (R16). -/
def takeStartUp (d : StartUp) (s : State) : State :=
  let s := { s with boot := .opened, img := { s.img with bank := d.bank, trial := d.trial, record := d.record } }
  offer d.report (requestHead s)

/-- The boot-record read is issued and not answered. -/
def Boot.isReading (b : Boot) : Bool :=
  match b with
  | .reading _ => true
  | .closed => false
  | .draining => false
  | .requesting => false
  | .opened => false

/-- BOOT_RECORD_READ_COMPLETE (R16, R145). -/
def bootReadComplete (resps : List Resp) (data : List Byte) (s : State) : State :=
  if s.boot.isReading then takeStartUp (startUp s.img.trial resps (data.take Config.recordSize)) s else s

/-! ### The tick -/

/-- The uptime prescaler (R39). -/
def tickUptime (t : Uptime) : Uptime :=
  if t.presc < 1023 then { t with presc := t.presc + 1 } else { t with presc := 0, secondDue := true }

/-- The week prescaler and the second (R40): the wrap of the second from 59 is the minute boundary, an event of its own. -/
def tickClock (c : Schedule) : Schedule :=
  if c.clock.presc < 1023 then { c with clock := { c.clock with presc := c.clock.presc + 1 } }
  else if c.clock.second < 59 then { c with clock := { c.clock with presc := 0, second := c.clock.second + 1 } }
  else { c with clock := { c.clock with presc := 0 }, minuteDue := true }

/-- The period tick count (R82). -/
def tickPacing (a : Admission) : Admission :=
  if a.ticks + 1 < a.params.period then { a with ticks := a.ticks + 1 } else { a with ticks := 0, boundaryDue := true }

/-- The line filter's sample (R61). -/
def tickLine (lineIn : Bool) (l : Line) : Line := if lineIn == l.level then { l with run := 0 } else { l with run := l.run + 1 }

/-- An event that an earlier tick has raised, the visit of its second among them, is not yet taken (log 4). -/
def tickBusy (s : State) : Bool :=
  s.time.secondDue || s.time.agingDue || s.sched.minuteDue || s.adm.boundaryDue || s.sched.line.run == 32 || visiting s

/-- TICK. While RST_N is asserted only the clock of week runs (R41); while POR_N is, nothing does. -/
def tick (lineIn : Bool) (s : State) : State :=
  if s.pins.por || tickBusy s then s
  else if s.pins.rst then { s with sched := tickClock s.sched }
  else
    { s with time := tickUptime s.time,
             sched := { tickClock s.sched with line := tickLine lineIn s.sched.line },
             adm := tickPacing s.adm }

/-- POWER_ON_RESET. -/
def execPowerOnReset (s : State) : Answer := .next (powerOnReset s)

/-- WARM_RESET. -/
def execWarmReset (s : State) : Answer := .next (warmReset s)

/-- RESET_RELEASE. -/
def execResetRelease (pin : ResetPin) (sel : BitVec 2) (s : State) : Answer := .next (resetRelease pin sel s)

/-- ABANDONED_RESPONSE. -/
def execAbandonedResponse (tag : Nat) (s : State) : Answer := .next (abandonedResponse tag s)

/-- BOOT_RECORD_READ_ISSUE. -/
def execBootRecordReadIssue (s : State) : Answer := .next (bootReadIssue s)

/-- BOOT_RECORD_READ_COMPLETE. -/
def execBootRecordReadComplete (resps : List Resp) (data : List Byte) (s : State) : Answer := .next (bootReadComplete resps data s)

/-- TICK. -/
def execTick (lineIn : Bool) (s : State) : Answer := .next (tick lineIn s)

end Sys2Proof.Machine
end

