-- ==== Sys2Proof/Machine/Dispatch.lean ====
section
/-! DEFINITION. exec: one arm for each event of the opcode table. -/

namespace Sys2Proof.Machine

open Sys2Proof

def exec (i : Instr) (s : State) : Host.Outcome State Fault Refusal :=
  match i with
  | .powerOnReset => Sys2Proof.Machine.execPowerOnReset s
  | .warmReset => Sys2Proof.Machine.execWarmReset s
  | .resetRelease pin ctlSel => Sys2Proof.Machine.execResetRelease pin ctlSel s
  | .abandonedResponse tag => Sys2Proof.Machine.execAbandonedResponse tag s
  | .bootRecordReadIssue => Sys2Proof.Machine.execBootRecordReadIssue s
  | .bootRecordReadComplete resps data => Sys2Proof.Machine.execBootRecordReadComplete resps data s
  | .upstreamWriteArrival a => Sys2Proof.Machine.execUpstreamWriteArrival a s
  | .upstreamReadArrival a => Sys2Proof.Machine.execUpstreamReadArrival a s
  | .upstreamWriteReceived tag data => Sys2Proof.Machine.execUpstreamWriteReceived tag data s
  | .frameStartWrite tag data => Sys2Proof.Machine.execFrameStartWrite tag data s
  | .peerRecord tag data => Sys2Proof.Machine.execPeerRecord tag data s
  | .commandCapture tag data => Sys2Proof.Machine.execCommandCapture tag data s
  | .tailWordWrite tag data => Sys2Proof.Machine.execTailWordWrite tag data s
  | .stagingWriteTracked tag data => Sys2Proof.Machine.execStagingWriteTracked tag data s
  | .bootRecordCheck => Sys2Proof.Machine.execBootRecordCheck s
  | .descriptorDisposition => Sys2Proof.Machine.execDescriptorDisposition s
  | .statusRecordDecision => Sys2Proof.Machine.execStatusRecordDecision s
  | .signalSample station => Sys2Proof.Machine.execSignalSample station s
  | .writeSideGrant => Sys2Proof.Machine.execWriteSideGrant s
  | .readSideGrant => Sys2Proof.Machine.execReadSideGrant s
  | .downstreamResponse tag resp => Sys2Proof.Machine.execDownstreamResponse tag resp s
  | .refusedWriteResponse tag => Sys2Proof.Machine.execRefusedWriteResponse tag s
  | .reportRecordResponse tag resp => Sys2Proof.Machine.execReportRecordResponse tag resp s
  | .headWordResponse tag resp => Sys2Proof.Machine.execHeadWordResponse tag resp s
  | .dumpWriteResponse tag resp => Sys2Proof.Machine.execDumpWriteResponse tag resp s
  | .statsWriteResponse tag resp => Sys2Proof.Machine.execStatsWriteResponse tag resp s
  | .sweepStart => Sys2Proof.Machine.execSweepStart s
  | .sweepReadReturn tag resps data => Sys2Proof.Machine.execSweepReadReturn tag resps data s
  | .uptimeSecond => Sys2Proof.Machine.execUptimeSecond s
  | .flowAging => Sys2Proof.Machine.execFlowAging s
  | .candidateExpired => Sys2Proof.Machine.execCandidateExpired s
  | .holdoffExpiry => Sys2Proof.Machine.execHoldoffExpiry s
  | .handoffTimeout => Sys2Proof.Machine.execHandoffTimeout s
  | .minuteBoundary => Sys2Proof.Machine.execMinuteBoundary s
  | .lineEdge => Sys2Proof.Machine.execLineEdge s
  | .pacingPeriodBoundary => Sys2Proof.Machine.execPacingPeriodBoundary s
  | .unknownCommand => Sys2Proof.Machine.execUnknownCommand s
  | .windowSet => Sys2Proof.Machine.execWindowSet s
  | .windowClear => Sys2Proof.Machine.execWindowClear s
  | .descProfileSet => Sys2Proof.Machine.execDescProfileSet s
  | .statusProfileSet => Sys2Proof.Machine.execStatusProfileSet s
  | .stationSet => Sys2Proof.Machine.execStationSet s
  | .stationClear => Sys2Proof.Machine.execStationClear s
  | .ruleSet => Sys2Proof.Machine.execRuleSet s
  | .ruleClear => Sys2Proof.Machine.execRuleClear s
  | .flowPin => Sys2Proof.Machine.execFlowPin s
  | .flowUnpin => Sys2Proof.Machine.execFlowUnpin s
  | .flowPromote => Sys2Proof.Machine.execFlowPromote s
  | .flowFlush => Sys2Proof.Machine.execFlowFlush s
  | .pacingSet => Sys2Proof.Machine.execPacingSet s
  | .capSet => Sys2Proof.Machine.execCapSet s
  | .timeSet => Sys2Proof.Machine.execTimeSet s
  | .scheduleStage => Sys2Proof.Machine.execScheduleStage s
  | .allowanceStage => Sys2Proof.Machine.execAllowanceStage s
  | .scheduleCommit => Sys2Proof.Machine.execScheduleCommit s
  | .scheduleEvaluate => Sys2Proof.Machine.execScheduleEvaluate s
  | .gateSet => Sys2Proof.Machine.execGateSet s
  | .grant => Sys2Proof.Machine.execGrant s
  | .lineSet => Sys2Proof.Machine.execLineSet s
  | .nodeSet => Sys2Proof.Machine.execNodeSet s
  | .roamProfileSet => Sys2Proof.Machine.execRoamProfileSet s
  | .handoffBegin => Sys2Proof.Machine.execHandoffBegin s
  | .handoffDecline => Sys2Proof.Machine.execHandoffDecline s
  | .handoffEnd => Sys2Proof.Machine.execHandoffEnd s
  | .stageBegin => Sys2Proof.Machine.execStageBegin s
  | .stageCancel => Sys2Proof.Machine.execStageCancel s
  | .stageVerify => Sys2Proof.Machine.execStageVerify s
  | .activationSet => Sys2Proof.Machine.execActivationSet s
  | .stats => Sys2Proof.Machine.execStats s
  | .tick lineIn => Sys2Proof.Machine.execTick lineIn s

end Sys2Proof.Machine
end

