-- ==== Sys2Proof/Safety.lean ====
section
/-! DEFINITION. The terms in which statements speak of the part: which blocks an event may change, how a command ends, what stands after a
reset, and the invariants that every step keeps. -/

namespace Sys2Proof.Machine

open Sys2Proof

/-! ### Frames -/

/-- The parts of State. -/
inductive Block where
  | pending | pins | boot | path | own | win | capture | sta | time | sched | cls | adm | rew | sig | hold | img | cmd | ports | free
  deriving DecidableEq, Repr

/-- Two states agree in a part. -/
def State.sameAt (b : Block) (s t : State) : Prop :=
  match b with
  | .pending => t.pending = s.pending
  | .pins => t.pins = s.pins
  | .boot => t.boot = s.boot
  | .path => t.path = s.path
  | .own => t.own = s.own
  | .win => t.win = s.win
  | .capture => t.capture = s.capture
  | .sta => t.sta = s.sta
  | .time => t.time = s.time
  | .sched => t.sched = s.sched
  | .cls => t.cls = s.cls
  | .adm => t.adm = s.adm
  | .rew => t.rew = s.rew
  | .sig => t.sig = s.sig
  | .hold => t.hold = s.hold
  | .img => t.img = s.img
  | .cmd => t.cmd = s.cmd
  | .ports => t.ports = s.ports
  | .free => t.free = s.free

/-- Every part outside a list is as it was. -/
def KeepsAllBut (bs : List Block) (s t : State) : Prop := ∀ b : Block, b ∉ bs → State.sameAt b s t

/-- The parts that the end of a command touches: the Command Unit, its own writes, and the path of a held command write (R159, R160,
R162, R163). -/
def commandParts : List Block := [.cmd, .own, .path]

/-- The parts that a report touches (R162, R163). -/
def reportParts : List Block := [.cmd, .own]

/-! ### Commands -/

/-- The Command Unit is free, no visit of an uptime second is due (log 5), and the oldest command has kind code `code`, flags 0 and
parameters `p` from byte 4 (R160, R161). -/
def commanded (s : State) (code : Nat) (p : List Byte) : Bool :=
  decide (s.cmd.executing = .idle) && !s.time.visitDue &&
    (match s.cmd.queue with
     | [] => false
     | c :: _ => decide ((byteAt c 0).toNat = code) && byteAt c 1 == 0 && decide (c.drop 4 = p))

/-- The events of the commands of Table 10.3 with their kind codes. -/
def commandTable : List (Nat × Instr) :=
  [(0x01, .windowSet), (0x02, .windowClear), (0x03, .descProfileSet), (0x04, .statusProfileSet), (0x05, .stationSet),
   (0x06, .stationClear), (0x07, .ruleSet), (0x08, .ruleClear), (0x09, .flowPin), (0x0A, .flowUnpin), (0x0B, .flowPromote),
   (0x0C, .flowFlush), (0x0D, .pacingSet), (0x0E, .capSet), (0x0F, .timeSet), (0x10, .scheduleStage), (0x11, .allowanceStage),
   (0x12, .scheduleCommit), (0x13, .scheduleEvaluate), (0x14, .gateSet), (0x15, .grant), (0x16, .lineSet), (0x17, .nodeSet),
   (0x18, .roamProfileSet), (0x19, .handoffBegin), (0x1A, .handoffDecline), (0x1B, .handoffEnd), (0x1C, .stageBegin),
   (0x1D, .stageCancel), (0x1E, .stageVerify), (0x1F, .activationSet), (0x20, .stats)]

/-- The Command Unit stands in `t` as the end of the oldest command leaves it when that end is taken in `u`: the COMPLETION offered with
a status and a result, the entry removed, the next held command write captured. -/
def EndsAs (status : Status) (result : List Byte) (u t : State) : Prop :=
  t.cmd = (completeCommand status result u).cmd ∧ t.own = (completeCommand status result u).own ∧
    t.path = (completeCommand status result u).path

/-- A command that ends with a status and a result and touches besides only the parts `bs`, having offered `reports` before. -/
def EndsWith (bs : List Block) (reports : List Report) (status : Status) (result : List Byte) (s t : State) : Prop :=
  EndsAs status result (offerAll reports s) t ∧ KeepsAllBut (bs ++ commandParts) s t

/-- A command turned away: nothing changes but for the COMPLETION. -/
def TurnedAway (status : Status) (s t : State) : Prop := EndsWith [] [] status [] s t

/-- An event that offers `reports` and touches besides only the parts `bs`. -/
def Reports (bs : List Block) (reports : List Report) (s t : State) : Prop :=
  t.cmd = (offerAll reports s).cmd ∧ t.own = (offerAll reports s).own ∧ KeepsAllBut (bs ++ reportParts) s t

/-! ### Writes inside the part -/

/-- A write passes: it takes its data, becomes ready for the write side after those ready before it, the write lists are settled, and nothing
else of the path changes. -/
def Passes (tag : Nat) (d : List Lane) (s t : State) : Prop :=
  t.path = { s.path with
    writes := settleFrom [] (s.path.writes.map fun w => if w.tag = tag then { w with data := d, stage := .ready } else w),
    ready := s.path.ready ++ [tag] }

/-- A write is held with its data, in the list of its ID, the write lists are settled, and nothing else of the path changes (R3, R4). -/
def HeldWith (tag : Nat) (d : List Lane) (s t : State) : Prop :=
  t.path = { s.path with
    writes := settleFrom [] (s.path.writes.map fun w =>
      if w.tag = tag then { w with data := d, stage := .held, listed := true, reserved := false } else w) }

/-- A write whose data beats are awaited, with data of its length. -/
def Receives (s : State) (w : WriteTx) (d : List Lane) : Prop :=
  findWrite s.path w.tag = some w ∧ w.stage = .arriving ∧ d.length = w.txn.len

/-- A write in DRAM under a window copy of a kind. -/
def InWindow (w : WriteTx) (c : WinCopy) (kind : WindowKind) : Prop :=
  w.win = some c ∧ c.record.kind = kind ∧ w.txn.addr.toNat < 0x1C000000

/-- Complete for a record of `n` bytes of a window (R8). -/
def CompleteFor (c : WinCopy) (n : Nat) (t : TxnAddr) (d : List Lane) : Prop :=
  c.record.base ≤ t.addr.toNat ∧ 0 < n ∧ (t.addr.toNat - c.record.base) % n = 0 ∧ t.addr.toNat + n ≤ c.record.base + c.record.size ∧
    t.len = n ∧ covers t = true ∧ ∀ l ∈ d, l.strobe = true

/-- The response that a write of an ID returns upstream when it has been answered downstream; none for the writes of other IDs. -/
def keptResponse (id : AxiId) (w : WriteTx) : Option PortEvent :=
  if w.txn.id = id then
    match w.stage with
    | .answered r => some (.upWriteResp w.tag id r)
    | .arriving => none
    | .held => none
    | .ready => none
    | .issued => none
    | .refused _ => none
  else none

/-- The newer writes `newer` split where the returning of kept responses of an ID ends (R5): every write of the ID in `first` is answered, and
`last` is empty or begins with a write of the ID that is not. -/
def ReturnsThrough (id : AxiId) (newer first last : List WriteTx) : Prop :=
  newer = first ++ last ∧ (∀ x ∈ first, x.txn.id = id → ∃ r, x.stage = .answered r) ∧
    (last = [] ∨ ∃ x rest, last = x :: rest ∧ x.txn.id = id ∧ ∀ r, x.stage ≠ .answered r)

/-- The oldest write of its ID leaves the part with a response, and the kept responses of the newer ones follow in arrival order (R5). -/
def Returned (older newer : List WriteTx) (w : WriteTx) (resp : Resp) (s t : State) : Prop :=
  ∀ first last : List WriteTx, ReturnsThrough w.txn.id newer first last →
    t.ports = s.ports ++ .upWriteResp w.tag w.txn.id resp :: first.filterMap (keptResponse w.txn.id) ∧
      t.path = { s.path with writes := older ++ (first.filter fun x => x.txn.id != w.txn.id) ++ last } ∧ KeepsAllBut [.ports, .path] s t

/-! ### Captures and rules -/

/-- A header field of `n` bytes at `off`, most significant byte first: present when every byte is captured (R20). -/
def headerField (bs : List Byte) (off n : Nat) : Option Nat := if off + n ≤ bs.length then some (beNat (slice bs off n)) else none

/-- The exclusive-or of the four words at `off`, present when all sixteen bytes are (R23). -/
def headerFold (bs : List Byte) (off : Nat) : Option Word :=
  if off + 16 ≤ bs.length then
    some (BitVec.ofNat 32 (beNat (slice bs off 4)) ^^^ BitVec.ofNat 32 (beNat (slice bs (off + 4) 4)) ^^^
      BitVec.ofNat 32 (beNat (slice bs (off + 8) 4)) ^^^ BitVec.ofNat 32 (beNat (slice bs (off + 12) 4)))
  else none

/-- The two ports are those at a transport offset, or both absent (R24). -/
def PortsFrom (bs : List Byte) (t : Option Nat) (r : Capture) : Prop :=
  r.srcPort = (t.bind fun t => headerField bs t 2).map (BitVec.ofNat 16) ∧
    r.dstPort = (t.bind fun t => headerField bs (t + 2) 2).map (BitVec.ofNat 16)

/-- The relation of a value to the reference is a member of the comparison set (Table 4.2). -/
def Related (c : Cond) (v : Nat) : Prop := c.less = true ∧ v < c.ref ∨ c.equal = true ∧ v = c.ref ∨ c.greater = true ∧ c.ref < v

/-- A condition is true for a capture and a length (R67, Table 4.3): an absent field makes it false, and ANY_PORT asks for one port. -/
def ConditionTrue (c : Cond) (cap : Capture) (len : Nat) : Prop :=
  match c.field with
  | .dstPort => ∃ v, cap.dstPort = some v ∧ Related c v.toNat
  | .srcPort => ∃ v, cap.srcPort = some v ∧ Related c v.toNat
  | .anyPort => (∃ v, cap.srcPort = some v ∧ Related c v.toNat) ∨ ∃ v, cap.dstPort = some v ∧ Related c v.toNat
  | .protocol => ∃ v, cap.proto = some v ∧ Related c v.toNat
  | .dscp => ∃ v, cap.dscp = some v ∧ Related c v.toNat
  | .length => Related c len

/-- A condition with an empty comparison set is disabled (Table 4.2). -/
def Disabled (c : Cond) : Prop := c.less = false ∧ c.equal = false ∧ c.greater = false

/-! ### The staging bank -/

/-- Every other window slot, profile, table entry is as it was. -/
def OtherEntries {α : Type} {n : Nat} (i : Fin n) (v w : Vector α n) : Prop := ∀ j : Fin n, j ≠ i → w[j] = v[j]

/-- All n chunks of a staging context are COMPLETE (R150). -/
def ChunksComplete (g : Staging) : Prop := ∀ c : Fin 256, c.val < g.chunkCount → g.chunks[c].state = .complete

/-- The Chunk Map and OUTSIDE after a tracked write at image offset `off`: the first case that applies (R149). -/
def ChunksFollow (a : TxnAddr) (d : List Lane) (off : Nat) (s t : State) : Prop :=
  let g := s.img.staging
  let chunks := t.img.staging.chunks
  (g.length ≤ off → t.img.outside = min (s.img.outside + 1) 4294967295 ∧ chunks = g.chunks) ∧
  (off < g.length → t.img.outside = s.img.outside ∧
    ∀ c : Fin 256, c.val = off / 65536 → OtherEntries c g.chunks chunks ∧
      (let size := if c.val + 1 = g.chunkCount then g.length - 65536 * c.val else 65536
       let n := g.chunks[c].progress
       (a.burst ≠ .incr ∨ (∃ l ∈ d, l.strobe = false) → chunks[c] = ⟨.disordered, 0⟩) ∧
       (a.burst = .incr → (∀ l ∈ d, l.strobe = true) →
         (off % 65536 = 0 → chunks[c] = ⟨if size ≤ a.len then .complete else .filling, a.len⟩) ∧
         (off % 65536 ≠ 0 → off % 65536 = n → chunks[c] = ⟨if size ≤ n + a.len then .complete else .filling, n + a.len⟩) ∧
         (off % 65536 ≠ 0 → off % 65536 ≠ n → chunks[c] = ⟨.disordered, 0⟩))))

/-! ### Stations -/

/-- Every station but `i` is as it was. -/
def OthersKept (i : Fin 128) (s t : State) : Prop := ∀ j : Fin 128, j ≠ i → t.sta.stations[j] = s.sta.stations[j]

/-! ### Gates and windows of time -/

/-- A GATE_CHANGE for each installed station whose gate differs between two tables, in ascending index (R49). -/
def gateReports (cause : GateCause) (before after : Vector (Option Station) 128) : List Report :=
  (List.finRange 128).filterMap fun i =>
    match before[i], after[i] with
    | some x, some y => if x.closed = y.closed then none else some (.gateChange cause i y.closed y.reasons)
    | _, _ => none

/-- The window evaluation of a station has this result (R47, R48). -/
def WindowEvaluated (clock : Clock) (active : Vector SchedProfile 16) (st : Station) : Prop :=
  (st.sched = none → st.reasons.window = false ∧ st.noUrgent = false ∧ st.free = false) ∧
    ∀ k : Fin 16, st.sched = some k →
      (let prof := active[k]
       let covering (j : Fin 8) : Prop :=
         prof.windows[j].days.getLsbD (clock.minute / 1440) = true ∧ prof.windows[j].start ≤ clock.minute % 1440 ∧
           clock.minute % 1440 < prof.windows[j].stop
       (clock.isSet = false → st.reasons.window = prof.closedUnset ∧ st.noUrgent = false ∧ st.free = false) ∧
       (clock.isSet = true → (∀ j, ¬covering j) → st.reasons.window = false ∧ st.noUrgent = false ∧ st.free = false) ∧
       (clock.isSet = true → ∀ j, covering j → (∀ j', j' < j → ¬covering j') →
         st.reasons.window = decide (prof.windows[j].action = .block) ∧ st.noUrgent = decide (prof.windows[j].action = .noUrgent) ∧
           st.free = decide (prof.windows[j].action = .free)))

/-- The active allowance of the profile a station names; 0 for none. -/
def dayAllowance (active : Vector SchedProfile 16) (sched : Option (Fin 16)) : Nat :=
  match sched with
  | none => 0
  | some k => active[k].allowance

/-! ### Releases -/

/-- A station as a release leaves it (R135 step 3, R136), given the holdoff deadline. -/
def LeftBy (outcome : HandoffOutcome) (deadline : Nat) (st u : Station) : Prop :=
  u = { st with overflow := 0, slot := none, state := u.state, deadline := u.deadline, est := u.est, dwell := u.dwell, peer := u.peer,
                away := u.away } ∧
    (outcome ≠ .cleared → u.state = .holdoff ∧ u.deadline = deadline) ∧
    (outcome = .cleared → u.state = .settled ∧ u.deadline = 0 ∧ u.dwell = 0) ∧
    (outcome = .departed → u.est = none ∧ u.dwell = 0 ∧ u.peer = none ∧ u.away = true) ∧
    (outcome ≠ .departed → u.est = st.est ∧ u.peer = st.peer ∧ u.away = st.away) ∧
    (outcome = .stayed ∨ outcome = .timedOut → u.dwell = st.dwell)

/-- Table 8.3. -/
def dispositionOf (outcome : HandoffOutcome) (closed : Bool) : Disposition :=
  if outcome = .departed then .forward else if outcome = .cleared ∨ closed = true then .discard else .resend

/-- What the release of the handoff of station `i` in slot `k` does to the station, the pool and the counts (R135, R136, R141). -/
def Released (outcome : HandoffOutcome) (i : Fin 128) (st : Station) (k : Fin 16) (o : Occupied) (s t : State) : Prop :=
  (∃ u, t.sta.stations[i] = some u ∧ LeftBy outcome ((s.time.secs + (s.sig.profiles[st.roam]).holdoff) % 4294967296) st u) ∧
    OthersKept i s t ∧ t.sta.unknown = s.sta.unknown ∧ t.sta.carry = s.sta.carry ∧ OtherEntries k s.hold.slots t.hold.slots ∧
    t.hold.free = s.hold.free + o.list.length ∧ t.hold.dumpFaults = s.hold.dumpFaults ∧
    t.hold.departed = (if outcome = .departed then min (s.hold.departed + 1) 4294967295 else s.hold.departed) ∧
    t.hold.stayed = (if outcome = .stayed then min (s.hold.stayed + 1) 4294967295 else s.hold.stayed) ∧
    t.hold.timedOut = (if outcome = .timedOut then min (s.hold.timedOut + 1) 4294967295 else s.hold.timedOut) ∧
    t.hold.cleared = (if outcome = .cleared then min (s.hold.cleared + 1) 4294967295 else s.hold.cleared)

/-- The slot of a release with references on its list is DUMPING, and its one or two dump writes are requested (R135, R137). -/
def Dumps (outcome : HandoffOutcome) (st : Station) (k : Fin 16) (o : Occupied) (s t : State) : Prop :=
  let refs := o.list.map fun r => (r, dispositionOf outcome st.closed)
  let area := s.control + 0x3000 + k.val * 256
  t.hold.slots[k] =
      .dumping ⟨o.station, o.tag, o.start, o.requests, refs, outcome, st.overflow, false, if o.list.length ≤ 16 then 1 else 2⟩ ∧
    t.own = { s.own with
      requests := s.own.requests ++
        if o.list.length ≤ 16 then [⟨.dump k, area, refs.flatMap refBytes⟩]
        else [⟨.dump k, area, (refs.take 16).flatMap refBytes⟩, ⟨.dump k, area + 128, (refs.drop 16).flatMap refBytes⟩] }

/-- The HOLD_RELEASE of a release without references (R137, R138). -/
def emptyRelease (outcome : HandoffOutcome) (st : Station) (k : Fin 16) (o : Occupied) : Report :=
  .holdRelease outcome o.station o.tag 0 st.overflow k false o.start o.requests

/-- No Flow Table entry but those that name a station is changed, and those are free (R77). -/
def FlowsOfRemoved (i : Fin 128) (s t : State) : Prop :=
  (∀ (n : Fin 256) (e : Flow), s.cls.flows[n] = some e → t.cls.flows[n] = if e.station = some i then none else some e) ∧
    (∀ n : Fin 256, s.cls.flows[n] = none → t.cls.flows[n] = none) ∧
    t.cls = { s.cls with
      flows := t.cls.flows,
      removed := min (s.cls.removed + s.cls.flows.toList.countP fun o => o.any fun e => e.station == some i) 4294967295 }

/-- What a WINDOW_SET with parameters `p` asks for when it passes checks 1 to 3 of R10, apart from its slot: every field the kind does not
use is zero (Table 1.5). -/
def WindowAsked (w : Windows) (p : List Byte) (r : WindowRec) : Prop :=
  let ordered := param1 p 10 = 0 ∧ r.order = .little ∨ param1 p 10 = 1 ∧ r.order = .big
  let bare : WindowRec := { WindowRec.off with kind := r.kind, base := param4 p 2, size := param4 p 6 }
  param4 p 2 % 4096 = 0 ∧ param4 p 2 < 0x1C000000 ∧ param4 p 6 % 4096 = 0 ∧ 4096 ≤ param4 p 6 ∧ param4 p 6 ≤ 0x10000000 ∧
    param4 p 2 + param4 p 6 ≤ 0x1C000000 ∧
    (param1 p 1 = 1 ∧ r.kind = .txRing ∧ ordered ∧ r.profile.val = param1 p 11 ∧ w.desc[r.profile].valid = true ∧
        r.queues.urgent.toNat = param1 p 12 ∧ r.queues.normal.toNat = param1 p 13 ∧ r.queues.bulk.toNat = param1 p 14 ∧
        r.queues.park.toNat = param1 p 15 ∧ r = { bare with order := r.order, profile := r.profile, queues := r.queues } ∨
      param1 p 1 = 2 ∧ r.kind = .rxStatus ∧ ordered ∧ r.profile.val = param1 p 11 ∧ w.status[r.profile].valid = true ∧
        r = { bare with order := r.order, profile := r.profile } ∨
      param1 p 1 = 3 ∧ r.kind = .frameBuffer ∧ (∃ e, 8 ≤ e ∧ e ≤ 14 ∧ param2 p 16 = 2 ^ e) ∧
        r = { bare with stride := param2 p 16, headroom := param1 p 18 } ∨
      param1 p 1 = 4 ∧ r.kind = .peer ∧ ordered ∧ r = { bare with order := r.order })

/-- Two fields of a record share no byte. -/
def Apart (off n off' n' : Nat) : Prop := off + n ≤ off' ∨ off' + n' ≤ off

/-- What a DESC_PROFILE_SET with parameters `p` asks for when it passes every check of R12 but that of the index (Table 1.6). -/
def DescAsked (p : List Byte) (d : DescProfile) : Prop :=
  d = ⟨true, param1 p 1, param1 p 2, param1 p 3, param1 p 4, param1 p 5, ⟨param1 p 6, param1 p 7, decide (param1 p 8 = 1)⟩,
       ⟨param1 p 9, param1 p 10, decide (param1 p 11 = 1)⟩⟩ ∧
    param1 p 8 ≤ 1 ∧ param1 p 11 ≤ 1 ∧ (d.size = 16 ∨ d.size = 32) ∧ d.addrOff + 4 ≤ d.size ∧ d.lenOff + 2 ≤ d.size ∧
    d.queueByte < d.size ∧ d.queueBit ≤ 4 ∧ d.owner.byte < d.size ∧ d.owner.bit ≤ 7 ∧ d.discard.byte < d.size ∧ d.discard.bit ≤ 7 ∧
    Apart d.addrOff 4 d.lenOff 2 ∧
    ¬(d.owner.byte = d.queueByte ∧ d.queueBit ≤ d.owner.bit ∧ d.owner.bit ≤ d.queueBit + 3) ∧
    ¬(d.discard.byte = d.queueByte ∧ d.queueBit ≤ d.discard.bit ∧ d.discard.bit ≤ d.queueBit + 3) ∧
    ¬(d.owner.byte = d.discard.byte ∧ d.owner.bit = d.discard.bit) ∧
    ∀ b, b = d.queueByte ∨ b = d.owner.byte ∨ b = d.discard.byte → Apart b 1 d.addrOff 4 ∧ Apart b 1 d.lenOff 2

/-- What a STATUS_PROFILE_SET with parameters `p` asks for when it passes every check of R13 but that of the index (Table 1.7). -/
def StatusAsked (p : List Byte) (d : StatusProfile) : Prop :=
  d = ⟨true, param1 p 1, param1 p 2, param1 p 3, ⟨param1 p 4, param1 p 5, decide (param1 p 6 = 1)⟩,
       ⟨param1 p 7, param1 p 8, decide (param1 p 9 = 1)⟩⟩ ∧
    param1 p 6 ≤ 1 ∧ param1 p 9 ≤ 1 ∧ (d.size = 16 ∨ d.size = 32 ∨ d.size = 64) ∧ d.macOff + 6 ≤ d.size ∧ d.signalOff < d.size ∧
    d.validFlag.byte < d.size ∧ d.validFlag.bit ≤ 7 ∧ d.drop.byte < d.size ∧ d.drop.bit ≤ 7 ∧ Apart d.signalOff 1 d.macOff 6 ∧
    ¬(d.validFlag.byte = d.drop.byte ∧ d.validFlag.bit = d.drop.bit) ∧
    ∀ b, b = d.validFlag.byte ∨ b = d.drop.byte → Apart b 1 d.macOff 6 ∧ b ≠ d.signalOff

/-- A condition of a Match List rule as RULE_SET's parameters at `i` give it (Tables 4.1, 4.2, R161). -/
def CondAsked (p : List Byte) (i : Nat) (c : Cond) : Prop :=
  param1 p (i + 1) < 8 ∧ c.less = (byteAt p (i + 1)).getLsbD 0 ∧ c.equal = (byteAt p (i + 1)).getLsbD 1 ∧
    c.greater = (byteAt p (i + 1)).getLsbD 2 ∧ c.ref = param2 p (i + 2) ∧
    (param1 p i = 0 ∧ c.field = .dstPort ∨ param1 p i = 1 ∧ c.field = .srcPort ∨ param1 p i = 2 ∧ c.field = .anyPort ∨
      param1 p i = 3 ∧ c.field = .protocol ∨ param1 p i = 4 ∧ c.field = .dscp ∨ param1 p i = 5 ∧ c.field = .length)

/-- A class with its allowance as two parameters give them: 1..1023 for URGENT, stored as 0 otherwise (R66, R78). -/
def ClassAsked (code allowance : Nat) (cls : Class) (a : Nat) : Prop :=
  code = 0 ∧ 1 ≤ allowance ∧ allowance ≤ 1023 ∧ cls = .urgent ∧ a = allowance ∨ code = 1 ∧ cls = .normal ∧ a = 0 ∨
    code = 2 ∧ cls = .bulk ∧ a = 0

/-- The only entry that holds a key. -/
def HoldsKey (s : State) (i : Fin 256) (e : Flow) (key : FlowKey) : Prop :=
  s.cls.flows[i] = some e ∧ e.key = key ∧ ∀ (j : Fin 256) (f : Flow), s.cls.flows[j] = some f → f.key = key → j = i

/-- No entry holds a key. -/
def KeyAbsent (s : State) (key : FlowKey) : Prop := ∀ (j : Fin 256) (f : Flow), s.cls.flows[j] = some f → f.key ≠ key

/-! ### Records and words -/

/-- The `n` bytes from `off` hold a value, least significant byte first (R161). -/
def Holds (b : List Byte) (off n v : Nat) : Prop := leNat (slice b off n) = v % 256 ^ n

/-- The `n` bytes from `off` hold a signed value in two's complement (R161). -/
def HoldsInt (b : List Byte) (off n : Nat) (v : Int) : Prop := (leNat (slice b off n) : Int) = v % ((256 ^ n : Nat) : Int)

/-- The six bytes from `off` hold a MAC in frame order (R161). -/
def HoldsMac (b : List Byte) (off : Nat) (m : Mac) : Prop := beNat (slice b off 6) = m.toNat

/-- A report record's kind code, sub-code and bytes 2-3, and zeros from byte `fin` on (Table 10.6). -/
def Headed (b : List Byte) (kind sub two fin : Nat) : Prop :=
  Holds b 0 1 kind ∧ Holds b 1 1 sub ∧ Holds b 2 2 two ∧ ∀ i, fin ≤ i → i < 32 → byteAt b i = 0

/-- The code of a bank in reports: A 0, B 1. -/
def bankCode (k : Bank) : Nat := if k = .a then 0 else 1

/-- The code of a fault of a boot record, 0 for none (Table 10.11). -/
def faultCode (f : Option RecordFault) : Nat :=
  [none, some RecordFault.magic, some .crc, some .bank, some .trial, some .readError].idxOf f

/-- The code of a staging state: the order of Table 9.4. -/
def stagingCode (g : StagingState) : Nat := [StagingState.idle, .receiving, .complete, .verifying, .verified, .corrupt].idxOf g

/-- The record of a report: kind code (Table 10.7), sub-code, bytes 2-3 and payload (Table 10.11). -/
def LaidOut (b : List Byte) (r : Report) : Prop :=
  match r with
  | .completion status tag kind result =>
    Holds b 0 1 0x01 ∧
      Holds b 1 1 ([Status.done, .accepted, .refusedRange, .refusedState, .refusedPending, .refusedFull, .refusedDuplicate,
        .refusedOverlap, .refusedUnknown].idxOf status) ∧
      Holds b 2 2 tag ∧ byteAt b 8 = kind ∧ ∀ i, i < 23 → byteAt b (9 + i) = byteAt result i
  | .cmdIgnored offset len id => Headed b 0x02 0 0xFFFF 14 ∧ Holds b 8 2 offset ∧ Holds b 10 2 len ∧ Holds b 12 2 id.toNat
  | .lost count => Headed b 0x03 0 0xFFFF 10 ∧ Holds b 8 2 count
  | .statsWritten fault sec bytes => Headed b 0x04 (if fault then 1 else 0) 0xFFFF 11 ∧ Holds b 8 1 sec ∧ Holds b 9 2 bytes
  | .bootStatus cause bank trial reverted fault vA vB =>
    Headed b 0x05 ([BootCause.invalid, .normal, .trial].idxOf cause) 0xFFFF 20 ∧ Holds b 8 1 (bankCode bank) ∧ Holds b 9 1 trial ∧
      Holds b 10 1 (if reverted then 1 else 0) ∧ Holds b 11 1 (faultCode fault) ∧ Holds b 12 4 vA.toNat ∧ Holds b 16 4 vB.toNat
  | .writeRefused region addr len id =>
    Headed b 0x06 ([RefusedRegion.bootAlias, .bankInForce, .recordSector].idxOf region) 0xFFFF 16 ∧ Holds b 8 4 addr.toNat ∧
      Holds b 12 2 len ∧ Holds b 14 2 id.toNat
  | .recordRefused cause selected version state staging =>
    Headed b 0x07 (match cause with | .fault f => faultCode (some f) | .notVerified => 6 | .versionMismatch => 7) 0xFFFF 18 ∧
      byteAt b 8 = selected ∧ Holds b 9 4 version.toNat ∧ Holds b 13 1 (stagingCode state) ∧ Holds b 14 4 staging.toNat
  | .confirmed bank version => Headed b 0x08 0 0xFFFF 13 ∧ Holds b 8 1 (bankCode bank) ∧ Holds b 9 4 version.toNat
  | .unknownStation mac slot raw => Headed b 0x09 0 0xFFFF 16 ∧ HoldsMac b 8 mac ∧ Holds b 14 1 slot.val ∧ byteAt b 15 = raw
  | .gateChange cause station closed reasons =>
    Headed b 0x0A ([GateCause.boundary, .timeSet, .evaluate, .grant, .gateSet, .line, .stationSet].idxOf cause) station.val 10 ∧
      Holds b 8 1 (if closed then 1 else 0) ∧
      Holds b 9 1 ((if reasons.window then 1 else 0) + (if reasons.allowance then 2 else 0) + (if reasons.line then 4 else 0) +
        (if reasons.host then 8 else 0))
  | .allowanceLow station used extra limit remaining =>
    Headed b 0x0B 0 station.val 15 ∧ Holds b 8 2 used ∧ Holds b 10 1 extra ∧ Holds b 11 2 limit ∧ Holds b 13 2 remaining
  | .commitApplied mask => Headed b 0x0C 0 0xFFFF 10 ∧ Holds b 8 2 mask.toNat
  | .lineEvent kind value =>
    Headed b 0x0D ([LineSub.asserted, .released, .syncForward, .syncBack].idxOf kind) 0xFFFF 9 ∧ Holds b 8 1 value
  | .flowDemoted entry station key allowance overCount count =>
    Headed b 0x0E 0 (match station with | some i => i.val | none => 0xFFFF) 29 ∧ Holds b 8 1 entry.val ∧ Holds b 9 1 key.proto.toNat ∧
      Holds b 10 4 key.srcFold.toNat ∧ Holds b 14 4 key.dstFold.toNat ∧ Holds b 18 2 key.srcPort.toNat ∧ Holds b 20 2 key.dstPort.toNat ∧
      Holds b 22 2 allowance ∧ Holds b 24 1 overCount ∧ Holds b 25 4 count
  | .pacingApplied p => Headed b 0x0F 0 0xFFFF 11 ∧ Holds b 8 1 p.period ∧ Holds b 9 1 p.threshold ∧ Holds b 10 1 p.idleTimeout
  | .capApplied slot cap => Headed b 0x0F 1 0xFFFF 11 ∧ Holds b 8 1 slot.val ∧ Holds b 9 2 cap
  | .signalCross rising station mac est sample weak =>
    Headed b 0x10 (if rising then 1 else 0) station.val 19 ∧ HoldsMac b 8 mac ∧ HoldsInt b 14 2 est ∧ HoldsInt b 16 1 sample ∧
      HoldsInt b 17 2 weak
  | .handoffCandidate station mac est peer node margin urgent =>
    Headed b 0x11 0 station.val 22 ∧ HoldsMac b 8 mac ∧ HoldsInt b 14 2 est ∧ HoldsInt b 16 2 peer ∧ Holds b 18 1 node ∧
      HoldsInt b 19 2 margin ∧ Holds b 21 1 (if urgent then 1 else 0)
  | .candidateExpired station mac est =>
    Headed b 0x12 0 station.val 16 ∧ HoldsMac b 8 mac ∧ HoldsInt b 14 2 (match est with | some e => e | none => 0)
  | .candidateWithdrawn station mac est => Headed b 0x13 0 station.val 16 ∧ HoldsMac b 8 mac ∧ HoldsInt b 14 2 est
  | .holdRelease outcome station tag held overflow slot fault start requests =>
    Headed b 0x14 ([HandoffOutcome.departed, .stayed, .timedOut, .cleared].idxOf outcome) station.val 20 ∧ Holds b 8 2 tag.toNat ∧
      Holds b 10 1 held ∧ Holds b 11 2 overflow ∧ Holds b 13 1 slot.val ∧ Holds b 14 1 (if fault then 1 else 0) ∧ Holds b 15 4 start ∧
      Holds b 19 1 requests
  | .stageComplete length version chunks => Headed b 0x15 0 0xFFFF 18 ∧ Holds b 8 4 length ∧ Holds b 12 4 version.toNat ∧ Holds b 16 2 chunks
  | .verifyResult result crc expected version offset image =>
    Headed b 0x16 ([VerifyResult.verified, .mismatch, .readError, .interrupted].idxOf result) 0xFFFF 28 ∧ Holds b 8 4 crc.toNat ∧
      Holds b 12 4 expected.toNat ∧ Holds b 16 4 version.toNat ∧ Holds b 20 4 offset ∧ Holds b 24 4 image
  | .activationDue bank version minute uptime =>
    Headed b 0x17 0 0xFFFF 19 ∧ Holds b 8 1 (bankCode bank) ∧ Holds b 9 4 version.toNat ∧ Holds b 13 2 minute ∧ Holds b 15 4 uptime

/-- The 32-bit words of some numbers (R165). -/
def words (ns : List Nat) : List Word := ns.map (BitVec.ofNat 32)

/-- The word of an absent, unset or none value (R165). -/
def absentWord : Word := 0xFFFFFFFF#32

/-- The 32 words of an installed station, in the order of R106, R65 and R129 (Table 10.4). -/
def stationEntry (now maxAge : Nat) (i : Fin 128) (st : Station) : List Word :=
  words [i.val, leNat (macBytes st.mac) % 4294967296, leNat (macBytes st.mac) / 4294967296, st.forwarded, st.discarded, st.parked, st.overflow] ++
    [(match st.sched with | some k => BitVec.ofNat 32 k.val | none => absentWord)] ++
    words [(if st.reasons.window then 1 else 0) + (if st.reasons.allowance then 2 else 0) + (if st.reasons.line then 4 else 0) +
        (if st.reasons.host then 8 else 0), st.used, st.extra, if st.noUrgent then 1 else 0, if st.free then 1 else 0] ++
    [(match st.est with | some e => BitVec.ofInt 32 e | none => absentWord)] ++ words [st.samples, st.dwell] ++
    (match st.peer with
     | some p => [BitVec.ofNat 32 p.node, BitVec.ofInt 32 p.est, BitVec.ofNat 32 p.measuredAt, if maxAge < now - p.measuredAt then 1 else 0]
     | none => [absentWord, absentWord, absentWord, absentWord]) ++
    words [[Roam.settled, .watch, .candidate, .handoff, .holdoff].idxOf st.state, st.deadline, if st.away then 1 else 0] ++ List.replicate 9 0

/-! ### After a reset -/

/-- Table 1.10, for the sample of CTL_SEL in force. -/
def WindowsReset (sel : BitVec 2) (w : Windows) : Prop :=
  w.slots[(0 : Fin 16)] = { WindowRec.off with kind := .control, base := Config.controlBase sel, size := 0x10000 } ∧
    w.slots[(1 : Fin 16)] = { WindowRec.off with kind := .bootAlias, base := 0x1C000000, size := 0x1000000 } ∧
    (∀ i : Fin 16, 2 ≤ i.val → w.slots[i] = WindowRec.off) ∧
    (∀ i : Fin 4, w.desc[i] = DescProfile.zero) ∧ (∀ i : Fin 4, w.status[i] = StatusProfile.zero)

/-- Tables 2.7, 3.6, 4.7, 5.4, 7.5 and 9.4, and R111, R141, R166: what every block holds after either reset. -/
def BlocksReset (t : State) : Prop :=
  t.boot = .closed ∧ t.path.writes = [] ∧ t.path.ready = [] ∧ t.path.reads = [] ∧ t.path.sweepWait = 0 ∧ t.own.requests = [] ∧
  t.own.issued = [] ∧
  t.capture.records = [] ∧ t.capture.captured = 0 ∧ t.capture.replaced = 0 ∧ t.capture.evicted = 0 ∧
  (∀ i : Fin 128, t.sta.stations[i] = none) ∧ t.sta.unknown = [] ∧
  t.time = ⟨0, 0, false, false, false⟩ ∧
  (∀ i : Fin 16, t.sched.active[i] = SchedProfile.initial ∧ t.sched.shadow[i] = SchedProfile.initial) ∧ t.sched.commit = none ∧
  t.sched.line = ⟨.off, true, false, false, 0⟩ ∧
  (∀ i : Fin 32, t.cls.rules[i] = none ∧ t.cls.decisions[i] = 0) ∧ (∀ i : Fin 256, t.cls.flows[i] = none) ∧ t.cls.defaultCount = 0 ∧
  t.cls.learned = 0 ∧ t.cls.evicted = 0 ∧ t.cls.aged = 0 ∧ t.cls.removed = 0 ∧
  t.adm.ticks = 0 ∧ t.adm.boundaryDue = false ∧ t.adm.params = ⟨10, 3, 60⟩ ∧ t.adm.staged = ⟨0, 0, 0⟩ ∧ t.adm.pending = false ∧ t.adm.admitted = false ∧ t.adm.activity = false ∧
  t.adm.demotions = 0 ∧ (∀ i : Fin 16, t.adm.slots[i] = ⟨0, 0, false, 0, 0, 0, 0, 0⟩) ∧
  t.rew.order = [] ∧ (∀ i : Fin 16, t.rew.counts[i] = ⟨0, 0, 0, 0, 0, 0, 0, 0, 0, 0⟩) ∧
  (∀ i : Fin 4, t.sig.profiles[i] = ⟨-72, 4, -85, 8, 6, 4, 3, 10, 30, 5, 3, 10, .none⟩) ∧ t.sig.node = 0 ∧ t.sig.samples = [] ∧
  t.sig.samplesTaken = 0 ∧ t.sig.samplesInvalid = 0 ∧ t.sig.samplesLost = 0 ∧ t.sig.peerTaken = 0 ∧ t.sig.peerIgnored = 0 ∧
  t.sig.peerPartial = 0 ∧
  (∀ k : Fin 16, t.hold.slots[k] = .free) ∧ t.hold.free = 512 ∧ t.hold.departed = 0 ∧ t.hold.stayed = 0 ∧ t.hold.timedOut = 0 ∧
  t.hold.cleared = 0 ∧ t.hold.dumpFaults = 0 ∧
  t.img.staging.state = .idle ∧ t.img.staging.bank = none ∧ t.img.staging.length = 0 ∧ t.img.staging.expectedCrc = 0 ∧
  t.img.staging.version = 0 ∧ t.img.staging.chunkCount = 0 ∧ (∀ c : Fin 256, t.img.staging.chunks[c] = ⟨.empty, 0⟩) ∧
  t.img.staging.sweep = none ∧ t.img.staging.stale = [] ∧ t.img.checks = [] ∧ t.img.dueSent = false ∧ t.img.window.enabled = false ∧ t.img.refusedWrites = 0 ∧
  t.img.refusedRecords = 0 ∧ t.img.outside = 0 ∧
  t.cmd = ⟨[], .idle, [], 0, 0, [], 0, 0, 0, 0⟩

/-- A transaction issued downstream whose response has not come (R17). -/
def Outstanding (s : State) (tag : Nat) : Prop :=
  tag ∈ s.path.abandoned ∨ (∃ w ∈ s.path.writes, w.tag = tag ∧ w.stage = .issued) ∨ (∃ r ∈ s.path.reads, r.tag = tag ∧ r.issued = true) ∨
    (∃ k, (tag, k) ∈ s.own.issued) ∨ s.boot = .reading tag ∨ (∃ w, s.img.staging.sweep = some w ∧ w.step = .reading tag) ∨
    tag ∈ s.img.staging.stale

/-! ### Invariants -/

/-- The Capture Buffer holds at most 256 records and no two of one key (R25). -/
def CaptureInv (s : State) : Prop := s.capture.records.length ≤ 256 ∧ (s.capture.records.map Capture.key).Nodup

/-- How many report records are requested or issued on the write side. -/
def reportsInFlight (o : OwnPort) : Nat := (o.requests.countP fun w => w.kind == .report) + o.issued.countP fun e => e.2 == .report

/-- The rings (R159, R162, R163): the Command Queue and the waiting list keep within their sizes; the slots in use and the reports
waiting never exceed 255, so no unread record is overwritten; and the part writes one report record at a time. -/
def RingInv (s : State) : Prop :=
  s.cmd.queue.length ≤ 8 ∧ s.cmd.head < 256 ∧ s.cmd.tail < 256 ∧ s.cmd.waiting.length ≤ 16 ∧
    (s.cmd.head + 256 - s.cmd.tail) % 256 + s.cmd.waiting.length ≤ 255 ∧ s.cmd.lost ≤ 65535 ∧
    reportsInFlight s.own = (if s.cmd.waiting = [] then 0 else 1) ∧ (s.own.issued.map Prod.fst).Nodup ∧
    ∀ e ∈ s.own.issued, e.1 < s.path.nextTag

/-- The references on the hold list of a handoff slot. -/
def HandoffSlot.held (h : HandoffSlot) : Nat :=
  match h with
  | .free => 0
  | .occupied o => o.list.length
  | .dumping _ => 0

/-- The hold pool is exact: every list keeps to 32 references, and free places and references together are 512 (R131). -/
def HoldInv (s : State) : Prop :=
  (∀ k : Fin 16, (s.hold.slots[k]).held ≤ 32) ∧ s.hold.free + (s.hold.slots.toList.map HandoffSlot.held).sum = 512

/-- The ranges of an installed station record (Table 2.4). -/
def StationOk (st : Station) : Prop :=
  isGroup st.mac = false ∧ st.mac ≠ 0 ∧ st.used ≤ 1440 ∧ st.extra ≤ 240 ∧ (∀ e, st.est = some e → -1600 ≤ e ∧ e ≤ -320) ∧
    st.samples ≤ 65535 ∧ st.dwell ≤ 63 ∧ st.overflow ≤ 65535 ∧ (∀ p, st.peer = some p → p.node ≤ 7 ∧ -1600 ≤ p.est ∧ p.est ≤ -320)

/-- The Station Table: no MAC in two records (R28), every field in its range (Table 2.4), and the carry list in the ranges that a station
takes from it (R30, R36); and a visit of an uptime second is due only while some station's deadline is passed (R125). -/
def StationInv (s : State) : Prop :=
  (∀ i j : Fin 128, ∀ a b : Station, s.sta.stations[i] = some a → s.sta.stations[j] = some b → a.mac = b.mac → i = j) ∧
    (∀ i : Fin 128, ∀ a : Station, s.sta.stations[i] = some a → StationOk a) ∧ (∀ e ∈ s.sta.carry, e.used ≤ 1440 ∧ e.extra ≤ 240) ∧
    (s.time.visitDue = true → ∃ (i : Fin 128) (a : Station), s.sta.stations[i] = some a ∧ a.overdue s.time.secs = true)

/-- A handoff and its slot (R130, R133): a station is in HANDOFF exactly while a slot is OCCUPIED for it, and its slot field then names that
slot, and is none otherwise; the command that waits for a release waits for a DUMPING slot, a STATION_CLEAR in execution finds its station
out of HANDOFF, and the command in execution stands in the Command Queue. -/
def HandoffInv (s : State) : Prop :=
  (∀ (i : Fin 128) (st : Station), s.sta.stations[i] = some st →
    (st.state = .handoff ↔ ∃ (k : Fin 16) (o : Occupied), s.hold.slots[k] = .occupied o ∧ o.station = i) ∧
    (st.state = .handoff → ∃ (k : Fin 16) (o : Occupied), st.slot = some k ∧ s.hold.slots[k] = .occupied o ∧ o.station = i) ∧
    (st.state ≠ .handoff → st.slot = none)) ∧
  (∀ (k : Fin 16) (o : Occupied), s.hold.slots[k] = .occupied o →
    ∃ st, s.sta.stations[o.station] = some st ∧ st.state = .handoff ∧ st.slot = some k) ∧
  (∀ k : Fin 16, (s.cmd.executing = .ending k ∨ ∃ i, s.cmd.executing = .clearing k i) → ∃ d, s.hold.slots[k] = .dumping d) ∧
  (∀ i : Fin 128, (s.cmd.executing = .removing i ∨ s.cmd.executing = .emptying i ∨ ∃ k, s.cmd.executing = .clearing k i) →
    ∀ st, s.sta.stations[i] = some st → st.state ≠ .handoff) ∧
  (s.cmd.executing ≠ .idle → s.cmd.queue ≠ [])

/-- The Flow Table: no key in two entries, and at most 64 entries pinned (R71). -/
def FlowInv (s : State) : Prop :=
  (∀ i j : Fin 256, ∀ a b : Flow, s.cls.flows[i] = some a → s.cls.flows[j] = some b → a.key = b.key → i = j) ∧ pinnedCount s.cls.flows ≤ 64

/-- Pacing parameters in the ranges of Table 5.1. -/
def PacingOk (p : Pacing) : Prop :=
  1 ≤ p.period ∧ p.period ≤ 255 ∧ 1 ≤ p.threshold ∧ p.threshold ≤ 15 ∧ 1 ≤ p.idleTimeout ∧ p.idleTimeout ≤ 255

/-- The clocks: the clock of week, uptime, the line filter and the pacing period keep to their ranges (R39, R40, R61, R82, R83). -/
def ClockInv (s : State) : Prop :=
  s.sched.clock.minute < 10080 ∧ s.sched.clock.second < 60 ∧ s.sched.clock.presc < 1024 ∧ s.time.presc < 1024 ∧
    s.time.secs < 4294967296 ∧ s.sched.line.run ≤ 32 ∧ PacingOk s.adm.params ∧ (s.adm.pending = true → PacingOk s.adm.staged) ∧
    s.adm.ticks < s.adm.params.period ∧ (s.adm.boundaryDue = true → s.adm.ticks = 0)

/-- The write lists hold at most 16 writes, with the places kept for writes that may yet be entered (R4, log 10), W is in 0..64 (R15), and a
handle names one write. -/
def PathInv (s : State) : Prop :=
  listedCount s.path ≤ 16 ∧ s.path.sweepWait ≤ 64 ∧ (s.path.writes.map WriteTx.tag).Nodup ∧ (∀ w ∈ s.path.writes, w.tag < s.path.nextTag) ∧
    ∀ w ∈ s.path.writes, w.undecided = true → w.listed = true ∨ w.reserved = true

/-- The windows of enabled slots share no byte (R1, R10). -/
def WindowsApart (w : Windows) : Prop :=
  ∀ i j : Fin 16, i ≠ j → w.slots[i].kind ≠ .off → w.slots[j].kind ≠ .off →
    w.slots[i].base + w.slots[i].size ≤ w.slots[j].base ∨ w.slots[j].base + w.slots[j].size ≤ w.slots[i].base

/-- The Window Table (R9, R10): the two fixed slots, the soft slots OFF or inside DRAM with a kind of their own, and no byte shared; while
a reset is asserted the port is closed and nothing is inside the part, and the soft slots are OFF (R16, R17). -/
def WindowInv (s : State) : Prop :=
  (∃ sel, s.win.slots[(0 : Fin 16)] = WindowRec.control sel) ∧ s.win.slots[(1 : Fin 16)] = WindowRec.bootAlias ∧
    (∀ i : Fin 16, 2 ≤ i.val → s.win.slots[i].kind ≠ .control ∧ s.win.slots[i].kind ≠ .bootAlias ∧
      (s.win.slots[i].kind = .off ∨ s.win.slots[i].base + s.win.slots[i].size ≤ 0x1C000000)) ∧
    WindowsApart s.win ∧
    (s.pins.por = true ∨ s.pins.rst = true →
      s.boot = .closed ∧ s.path.writes = [] ∧ s.cmd.queue = [] ∧ ∀ i : Fin 16, 2 ≤ i.val → s.win.slots[i] = WindowRec.off)

end Sys2Proof.Machine
end

