-- ==== Sys2Proof/Certificates/Slice0/Obligations.lean ====
section
/-! DEFINITION. The statements for the provers. Each docstring names the rules of the spec it formalises, or the log entry where it rests
on a choice of the model. -/

open Sys2Proof Sys2Proof.Machine

/-- The event at the front of the queue is taken, in the state with the rest of the queue; on an empty queue the part idles, the model's
choice (log 2). -/
def Obligations.StepTakesTheFront : Prop :=
  (∀ (c : Instr) (rest : List Instr) (s : State), s.pending = c :: rest → step s = exec c (s.withPending rest)) ∧
    ∀ s : State, s.pending = [] → step s = .next s

/-- POWER_ON_RESET (R17, R18, R36, R38, R41, R157, R166): every block is at its reset state, the carry list is empty, the clock of week and
the trial count are at their first values, and of the transactions only the responses still owed downstream are remembered. The base of slot
0 between the assertion and the next sample of CTL_SEL is that of the last sample, the model's choice (log 13), and states in which RST_N is
asserted too are treated as the model deduces (log 15). -/
def Obligations.PowerOnResetClears : Prop :=
  ∀ s : State, s.pins.por = false →
    ∃ t, exec .powerOnReset s = .next t ∧ BlocksReset t ∧ WindowsReset s.pins.ctlSel t.win ∧ t.pins = { s.pins with por := true } ∧
      t.sta.carry = [] ∧ t.sched.clock = ⟨0, 0, 0, false⟩ ∧ t.sched.minuteDue = false ∧ t.img.trial = 0 ∧ t.img.record = none ∧
      (∀ tag, tag ∈ t.path.abandoned ↔ Outstanding s tag) ∧ t.irq = false ∧ t.ports = s.ports ∧ t.pending = s.pending

/-- WARM_RESET (R17, R18, R36, R41, R145): as POWER_ON_RESET, but the clock of week and the trial count are kept, and the carry list is the
snapshot of the stations with used minutes above 0. The base of slot 0 between the assertion and the next sample of CTL_SEL is that of the last
sample, the model's choice (log 13); states in which POR_N is asserted too are treated as the model deduces (log 15); a minute boundary that
is due and not yet taken stays due (log 4). -/
def Obligations.WarmResetKeepsClockAndUsage : Prop :=
  ∀ s : State, s.pins.rst = false →
    ∃ t, exec .warmReset s = .next t ∧ BlocksReset t ∧ WindowsReset s.pins.ctlSel t.win ∧ t.pins = { s.pins with rst := true } ∧
      (∀ e, e ∈ t.sta.carry ↔
        ∃ (i : Fin 128) (st : Station), s.sta.stations[i] = some st ∧ 0 < st.used ∧ e = ⟨st.mac, st.used, st.extra, s.sched.clock.minute / 1440⟩) ∧
      t.sched.clock = s.sched.clock ∧ t.sched.minuteDue = s.sched.minuteDue ∧ t.img.trial = s.img.trial ∧ t.img.record = none ∧
      (∀ tag, tag ∈ t.path.abandoned ↔ Outstanding s tag) ∧ t.irq = false ∧ t.ports = s.ports ∧ t.pending = s.pending

/-- The start-up sequence (R16, R17): RESET_RELEASE samples CTL_SEL and sets the base of slot 0, ABANDONED_RESPONSE accepts and discards an
owed response, and BOOT_RECORD_READ_ISSUE requests the boot-record read only after the last of them. With both pins asserted the start-up
begins at the second release and CTL_SEL is sampled at each, DEDUCED (log 15). A response that is not owed, and BOOT_RECORD_READ_ISSUE while
responses are owed, change nothing: the model's choice (log 1). -/
def Obligations.StartUpWaitsForOwedResponses : Prop :=
  (∀ (s : State) (pin : ResetPin) (sel : BitVec 2), s.pins.asserted pin = true →
    ∃ t, exec (.resetRelease pin sel) s = .next t ∧ t.pins.asserted pin = false ∧ t.pins.ctlSel = sel ∧
      (∀ other, other ≠ pin → t.pins.asserted other = s.pins.asserted other) ∧
      t.win.slots[(0 : Fin 16)] =
        { WindowRec.off with
          kind := .control, size := 0x10000,
          base := if sel = 0 then 0x00F00000 else if sel = 1 then 0x07F00000 else if sel = 2 then 0x0FF00000 else 0x17F00000 } ∧
      OtherEntries 0 s.win.slots t.win.slots ∧ t.win.desc = s.win.desc ∧ t.win.status = s.win.status ∧
      (t.boot = .draining ↔ t.pins.por = false ∧ t.pins.rst = false) ∧ (t.boot = .draining ∨ t.boot = .closed) ∧
      KeepsAllBut [.pins, .boot, .win] s t) ∧
  (∀ (s : State) (tag : Nat),
    ∃ t, exec (.abandonedResponse tag) s = .next t ∧ (∀ x, x ∈ t.path.abandoned ↔ x ∈ s.path.abandoned ∧ x ≠ tag) ∧
      { t.path with abandoned := s.path.abandoned } = s.path ∧ KeepsAllBut [.path] s t) ∧
  (∀ s : State, s.boot = .draining → s.path.abandoned = [] →
    ∃ t, exec .bootRecordReadIssue s = .next t ∧ t.boot = .requesting ∧ KeepsAllBut [.boot] s t) ∧
  ∀ s : State, s.boot = .draining → s.path.abandoned ≠ [] → exec .bootRecordReadIssue s = .next s

/-- BOOT_RECORD_READ_COMPLETE (R16, R144, R145, R166): Table 9.3 decides the bank in force, the trial count and the record copy; the port
opens; the head word is written with 0, and BOOT_STATUS is the first report. -/
def Obligations.StartUpDecidesTheBankInForce : Prop :=
  ∀ (s : State) (tag : Nat) (resps : List Resp) (bs : List Byte), s.boot = .reading tag → s.cmd = CommandUnit.initial →
    s.own = OwnPort.initial → bs.length = 32 →
    ∃ t cause reverted fault, exec (.bootRecordReadComplete resps bs) s = .next t ∧ t.boot = .opened ∧
      KeepsAllBut [.boot, .img, .cmd, .own] s t ∧
      t.img = { s.img with bank := t.img.bank, trial := t.img.trial, record := t.img.record } ∧
      (let vA := match t.img.record with | none => 0 | some r => recVersionA r
       let vB := match t.img.record with | none => 0 | some r => recVersionB r
       let w : Waiting := ⟨.bootStatus cause t.img.bank t.img.trial reverted fault vA vB, s.time.secs⟩
       t.cmd = { CommandUnit.initial with waiting := [w] } ∧ t.own.issued = [] ∧
       t.own.requests = [⟨.head, s.control + 0x808, [0, 0, 0, 0]⟩, ⟨.report, s.control + 0x1000, w.bytes⟩]) ∧
      ((∃ r ∈ resps, r ≠ Resp.okay) →
        t.img.bank = .a ∧ t.img.trial = s.img.trial ∧ t.img.record = none ∧ cause = .invalid ∧ reverted = false ∧ fault = some .readError) ∧
      ((∀ r ∈ resps, r = Resp.okay) →
        (∀ f, recordFault bs = some f →
          t.img.bank = .a ∧ t.img.trial = s.img.trial ∧ t.img.record = none ∧ cause = .invalid ∧ reverted = false ∧ fault = some f) ∧
        (recordFault bs = none → fault = none ∧ t.img.record = some bs ∧
          (recTrial bs = 0 → bankOf (recSelected bs) = some t.img.bank ∧ t.img.trial = 0 ∧ cause = .normal ∧ reverted = false) ∧
          (recTrial bs = 1 → t.img.trial = min (s.img.trial + 1) 255 ∧ cause = .trial ∧
            (t.img.trial ≤ 3 → bankOf (recSelected bs) = some t.img.bank ∧ reverted = false) ∧
            (3 < t.img.trial → bankOf (recPrevious bs) = some t.img.bank ∧ reverted = true))))

/-- A boot record is well formed exactly when the four checks of R144 hold, and otherwise the first failing check names the fault. -/
def Obligations.RecordFaultIsTheFirstFailingCheck : Prop :=
  ∀ bs : List Byte,
    (recordFault bs = some .magic ↔ bs.take 4 ≠ [0x57#8, 0x32#8, 0x36#8, 0x42#8]) ∧
    (recordFault bs = some .crc ↔
      bs.take 4 = [0x57#8, 0x32#8, 0x36#8, 0x42#8] ∧ leNat (slice bs 28 4) ≠ (crc32 (bs.take 28)).toNat) ∧
    (recordFault bs = some .bank ↔
      bs.take 4 = [0x57#8, 0x32#8, 0x36#8, 0x42#8] ∧ leNat (slice bs 28 4) = (crc32 (bs.take 28)).toNat ∧
        ¬(((byteAt bs 4).toNat = 0 ∨ (byteAt bs 4).toNat = 1) ∧ ((byteAt bs 5).toNat = 0 ∨ (byteAt bs 5).toNat = 1))) ∧
    (recordFault bs = some .trial ↔
      bs.take 4 = [0x57#8, 0x32#8, 0x36#8, 0x42#8] ∧ leNat (slice bs 28 4) = (crc32 (bs.take 28)).toNat ∧
        ((byteAt bs 4).toNat = 0 ∨ (byteAt bs 4).toNat = 1) ∧ ((byteAt bs 5).toNat = 0 ∨ (byteAt bs 5).toNat = 1) ∧
        ¬((byteAt bs 6).toNat = 0 ∨ (byteAt bs 6).toNat = 1)) ∧
    (recordFault bs = none ↔
      bs.take 4 = [0x57#8, 0x32#8, 0x36#8, 0x42#8] ∧ leNat (slice bs 28 4) = (crc32 (bs.take 28)).toNat ∧
        ((byteAt bs 4).toNat = 0 ∨ (byteAt bs 4).toNat = 1) ∧ ((byteAt bs 5).toNat = 0 ∨ (byteAt bs 5).toNat = 1) ∧
        ((byteAt bs 6).toNat = 0 ∨ (byteAt bs 6).toNat = 1))

/-- The lookup of R1 in a Window Table whose enabled slots share no byte (R10, an invariant of every step): the slot whose window contains the
address, with a copy of its record and of the profile the record references; no slot where none contains it. -/
def Obligations.LookupGivesTheContainingSlot : Prop :=
  ∀ (w : Windows) (addr : Nat), WindowsApart w →
    (∀ i : Fin 16, w.slots[i].kind ≠ .off → w.slots[i].base ≤ addr → addr < w.slots[i].base + w.slots[i].size →
      ∃ c, lookupWindow w addr = some c ∧ c.slot = i ∧ c.record = w.slots[i] ∧
        (w.slots[i].kind = .txRing → c.layout = .desc w.desc[w.slots[i].profile]) ∧
        (w.slots[i].kind = .rxStatus → c.layout = .status w.status[w.slots[i].profile])) ∧
    ((∀ i : Fin 16, w.slots[i].kind = .off ∨ addr < w.slots[i].base ∨ w.slots[i].base + w.slots[i].size ≤ addr) →
      lookupWindow w addr = none)

/-- UPSTREAM_WRITE_ARRIVAL and UPSTREAM_READ_ARRIVAL (R1, R2, R4, R6, R16, R142, R143): with the port open and fewer than 16 places of the write
lists taken, a write outside the boot alias and the bank in force joins the writes inside the part with the result of its lookup. It stands
in the list of its ID when an older write of the ID does, or when it is one for the boot record sector; a place is kept for it when it may
yet need a decision, or an older write of its ID may: the model's choice (log 10). A write into the boot alias or into the bank in force is
refused at its arrival, counted and reported. A read joins the reads with the result of its lookup; one of the boot alias is issued at the
same offset in the bank in force, any other at its own address. While the port is closed, or, for a write, 16 places are taken, the
transaction is not accepted and waits outside: the model's choice (log 1). -/
def Obligations.ArrivalsKeepTheirLookup : Prop :=
  (∀ (s : State) (a : TxnAddr),
    (s.boot = .opened → listedCount s.path < 16 → ¬(0x1C000000 ≤ a.addr.toNat ∧ a.addr.toNat < 0x1D000000) →
      ¬(s.img.bank.base ≤ a.addr.toNat ∧ a.addr.toNat < s.img.bank.base + 0x1000000) →
      ∃ t w, exec (.upstreamWriteArrival a) s = .next t ∧ w.tag = s.path.nextTag ∧ w.txn = a ∧ w.stage = .arriving ∧ w.data = [] ∧
        w.win = lookupWindow s.win a.addr.toNat ∧
        (w.listed = true ↔ (∃ o ∈ s.path.writes, o.listed = true ∧ o.txn.id = a.id) ∨
          0x1FFF0000 ≤ a.addr.toNat ∧ a.addr.toNat ≤ 0x1FFFFFFF) ∧
        (w.reserved = true ↔ w.listed = false ∧
          ((∃ o ∈ s.path.writes, o.reserved = true ∧ o.txn.id = a.id) ∨ mayHold w.win a = true)) ∧
        t.path = { s.path with writes := s.path.writes ++ [w], nextTag := s.path.nextTag + 1 } ∧ KeepsAllBut [.path] s t) ∧
    ((s.boot ≠ .opened ∨ 16 ≤ listedCount s.path) → exec (.upstreamWriteArrival a) s = .next s)) ∧
  (∀ (s : State) (a : TxnAddr) (region : RefusedRegion), s.boot = .opened → listedCount s.path < 16 →
    (region = .bootAlias ∧ 0x1C000000 ≤ a.addr.toNat ∧ a.addr.toNat < 0x1D000000 ∨
      region = .bankInForce ∧ s.img.bank.base ≤ a.addr.toNat ∧ a.addr.toNat < s.img.bank.base + 0x1000000) →
    ∃ t w, exec (.upstreamWriteArrival a) s = .next t ∧ w.tag = s.path.nextTag ∧ w.txn = a ∧ w.stage = .refused false ∧ w.data = [] ∧
      w.win = lookupWindow s.win a.addr.toNat ∧
      (w.listed = true ↔ ∃ o ∈ s.path.writes, o.listed = true ∧ o.txn.id = a.id) ∧
      (w.reserved = true ↔ w.listed = false ∧ ∃ o ∈ s.path.writes, o.reserved = true ∧ o.txn.id = a.id) ∧
      t.path = { s.path with writes := s.path.writes ++ [w], nextTag := s.path.nextTag + 1 } ∧
      t.img = { s.img with refusedWrites := min (s.img.refusedWrites + 1) 4294967295 } ∧
      Reports [.path, .img] [.writeRefused region a.addr a.len a.id] s t) ∧
  ∀ (s : State) (a : TxnAddr),
    (s.boot = .opened →
      ∃ t r, exec (.upstreamReadArrival a) s = .next t ∧ r.tag = s.path.nextTag ∧ r.txn = a ∧ r.issued = false ∧
        r.win = lookupWindow s.win a.addr.toNat ∧
        t.path = { s.path with reads := s.path.reads ++ [r], nextTag := s.path.nextTag + 1 } ∧ KeepsAllBut [.path] s t ∧
        (0x1C000000 ≤ a.addr.toNat → a.addr.toNat < 0x1D000000 →
          r.downAddr = (match s.img.bank with | .a => 0x1D000000 | .b => 0x1E000000) + (a.addr.toNat - 0x1C000000)) ∧
        (a.addr.toNat < 0x1C000000 ∨ 0x1D000000 ≤ a.addr.toNat → r.downAddr = a.addr.toNat)) ∧
    (s.boot ≠ .opened → exec (.upstreamReadArrival a) s = .next s)

/-- The write lists (R4, R6, Table 1.4): settled from the oldest write on, a write keeps all but its places in the lists. A place kept for it
becomes an entry behind an older write of its ID in the list, stays while it or an older one of its ID is undecided, and is given up
otherwise; a refused write leaves the list of its ID when it heads it. How places are kept is the model's choice (log 10), and when a refused
write leaves its list is DEDUCED (log 11). So a write that needs no decision and has no older write of its ID in the lists stands in none
after its reception. -/
def Obligations.WriteListsFollowTheOlderWrites : Prop :=
  (∀ (ws : List WriteTx) (k : Nat) (w : WriteTx), ws[k]? = some w →
    ∃ v, (settleFrom [] ws)[k]? = some v ∧ v = { w with listed := v.listed, reserved := v.reserved } ∧
      (let older := (settleFrom [] ws).take k
       let behind := ∃ o ∈ older, o.txn.id = w.txn.id ∧ o.listed = true
       let kept := ∃ o ∈ older, o.txn.id = w.txn.id ∧ o.reserved = true
       (w.reserved = true → behind → v.listed = true ∧ v.reserved = false) ∧
       (w.reserved = true → ¬behind →
         v.listed = w.listed ∧ (v.reserved = true ↔ w.stage = .arriving ∧ mayHold w.win w.txn = true ∨ kept)) ∧
       (w.reserved = false →
         v.reserved = false ∧ (v.listed = true ↔ w.listed = true ∧ (behind ∨ ∀ received, w.stage ≠ .refused received))))) ∧
  (∀ ws : List WriteTx, (settleFrom [] ws).length = ws.length) ∧
  ∀ (s : State) (older newer : List WriteTx) (w : WriteTx) (d : List Lane), Receives s w d → s.path.writes = older ++ w :: newer →
    (∀ x ∈ older, x.tag ≠ w.tag) → w.win = none → inSector w.txn.addr.toNat = false → inStaging s.img w.txn.addr.toNat = false →
    w.listed = false → (∀ x ∈ older, x.txn.id = w.txn.id → x.listed = false ∧ x.reserved = false) →
    ∃ t x, exec (.upstreamWriteReceived w.tag d) s = .next t ∧ findWrite t.path w.tag = some x ∧ x.stage = .ready ∧ x.listed = false ∧
      x.reserved = false

/-- UPSTREAM_WRITE_RECEIVED of a write that concerns no owner (R2, R14): in no window, not in the boot record sector, not in the staging
bank, it is ready at its reception with its data as it came, behind the writes that became ready before it. The data beats of a write
refused at its arrival are accepted and discarded (R6). -/
def Obligations.PlainWriteIsReadyAtReception : Prop :=
  (∀ (s : State) (w : WriteTx) (d : List Lane), Receives s w d → w.win = none → inSector w.txn.addr.toNat = false →
    inStaging s.img w.txn.addr.toNat = false →
    ∃ t, exec (.upstreamWriteReceived w.tag d) s = .next t ∧ Passes w.tag d s t ∧ KeepsAllBut [.path] s t) ∧
  ∀ (s : State) (w : WriteTx) (d : List Lane), findWrite s.path w.tag = some w → w.stage = .refused false → d.length = w.txn.len →
    ∃ t, exec (.upstreamWriteReceived w.tag d) s = .next t ∧ KeepsAllBut [.path] s t ∧
      t.path = { s.path with
        writes := s.path.writes.map fun x => if x.tag = w.tag then { x with stage := .refused true, data := [] } else x }

/-- UPSTREAM_WRITE_RECEIVED in a TX_RING or RX_STATUS window (R3, R8, R98, R107, R109): a complete record whose owner or valid flag is set is
held, behind those received before it; a complete record without the flag passes uncounted; any other write passes and is counted in
PARTIAL or STATUS_PARTIAL of its slot. That a FIXED burst of more than one beat is complete for no record is DEDUCED (log 8). -/
def Obligations.CompleteRecordsAreHeldForTheRewriter : Prop :=
  ∀ (s : State) (w : WriteTx) (c : WinCopy) (d : List Lane), Receives s w d →
    (∀ p : DescProfile, InWindow w c .txRing → c.layout = .desc p →
      ∃ t, exec (.upstreamWriteReceived w.tag d) s = .next t ∧
        (CompleteFor c p.size w.txn d → flagSet (laneBytes d) p.owner = true →
          HeldWith w.tag d s t ∧ t.rew = { s.rew with order := s.rew.order ++ [w.tag] } ∧ KeepsAllBut [.path, .rew] s t) ∧
        (CompleteFor c p.size w.txn d → flagSet (laneBytes d) p.owner = false → Passes w.tag d s t ∧ KeepsAllBut [.path] s t) ∧
        (¬CompleteFor c p.size w.txn d →
          Passes w.tag d s t ∧ KeepsAllBut [.path, .rew] s t ∧ t.rew.order = s.rew.order ∧
            OtherEntries c.slot s.rew.counts t.rew.counts ∧
            t.rew.counts[c.slot] =
              { s.rew.counts[c.slot] with partials := min (s.rew.counts[c.slot].partials + 1) 4294967295 })) ∧
    (∀ p : StatusProfile, InWindow w c .rxStatus → c.layout = .status p →
      ∃ t, exec (.upstreamWriteReceived w.tag d) s = .next t ∧
        (CompleteFor c p.size w.txn d → flagSet (laneBytes d) p.validFlag = true →
          HeldWith w.tag d s t ∧ t.rew = { s.rew with order := s.rew.order ++ [w.tag] } ∧ KeepsAllBut [.path, .rew] s t) ∧
        (CompleteFor c p.size w.txn d → flagSet (laneBytes d) p.validFlag = false → Passes w.tag d s t ∧ KeepsAllBut [.path] s t) ∧
        (¬CompleteFor c p.size w.txn d →
          Passes w.tag d s t ∧ KeepsAllBut [.path, .rew] s t ∧ t.rew.order = s.rew.order ∧
            OtherEntries c.slot s.rew.counts t.rew.counts ∧
            t.rew.counts[c.slot] =
              { s.rew.counts[c.slot] with statusPartial := min (s.rew.counts[c.slot].statusPartial + 1) 4294967295 }))

/-- FRAME_START_WRITE (R19, R20, R21, R25): the write passes; a record of the same key is removed and counted REPLACED; with at least 12
captured bytes a full buffer gives up its oldest record, and the new record is the newest, with the key, the destination MAC and the
uptime of the reception. Any other write into a FRAME_BUFFER window passes and is not examined. -/
def Obligations.FrameStartEntersACapture : Prop :=
  (∀ (s : State) (w : WriteTx) (c : WinCopy) (d : List Lane), Receives s w d → InWindow w c .frameBuffer → w.txn.burst = .incr →
    c.record.base + c.record.headroom ≤ w.txn.addr.toNat →
    (w.txn.addr.toNat - c.record.base - c.record.headroom) % c.record.stride = 0 →
    ∃ t, exec (.frameStartWrite w.tag d) s = .next t ∧ Passes w.tag d s t ∧ KeepsAllBut [.path, .capture] s t ∧
      (let bs := ((d.takeWhile Lane.strobe).map Lane.byte).take 96
       let kept := s.capture.records.filter fun r => r.key != w.txn.addr.toNat
       let replaced :=
         if (s.capture.records.any fun r => r.key == w.txn.addr.toNat) = true then min (s.capture.replaced + 1) 4294967295
         else s.capture.replaced
       (bs.length < 12 → t.capture = { s.capture with records := kept, replaced := replaced }) ∧
       (12 ≤ bs.length →
         ∃ r : Capture, r.key = w.txn.addr.toNat ∧ r.dst = macAt bs 0 ∧ r.uptime = s.time.secs ∧ r = parseFrame r.key r.uptime bs ∧
           t.capture.records = (if kept.length < 256 then kept else kept.tail) ++ [r] ∧ t.capture.replaced = replaced ∧
           t.capture.captured = min (s.capture.captured + 1) 4294967295 ∧
           t.capture.evicted = if kept.length < 256 then s.capture.evicted else min (s.capture.evicted + 1) 4294967295))) ∧
  ∀ (s : State) (w : WriteTx) (c : WinCopy) (d : List Lane), Receives s w d → InWindow w c .frameBuffer →
    ¬(w.txn.burst = .incr ∧ c.record.base + c.record.headroom ≤ w.txn.addr.toNat ∧
      (w.txn.addr.toNat - c.record.base - c.record.headroom) % c.record.stride = 0) →
    ∃ t, exec (.upstreamWriteReceived w.tag d) s = .next t ∧ Passes w.tag d s t ∧ KeepsAllBut [.path] s t

/-- Header parsing (R20 to R24): one VLAN tag is skipped, the EtherType in use decides the kind, and every field stands at the offset that
Tables 2.1 and 2.2 give, most significant byte first, present when all its bytes are captured. The ports of TCP and UDP stand at the
transport offset: after the IPv4 header with its options, when its length is captured and at least 5, or 40 bytes into an IPv6 header. For
kind OTHER every other field is absent. -/
def Obligations.HeaderFieldsStandAtTheirOffsets : Prop :=
  ∀ (key now : Nat) (bs : List Byte), ∃ r, parseFrame key now bs = r ∧ r.key = key ∧ r.uptime = now ∧ r.dst = macAt bs 0 ∧
    ∀ (o : Nat) (type : Option Nat),
      (headerField bs 12 2 = some 0x8100 ∧ o = 18 ∨ headerField bs 12 2 ≠ some 0x8100 ∧ o = 14) → type = headerField bs (o - 2) 2 →
      (r.kind = .ipv4 ↔ type = some 0x0800) ∧ (r.kind = .ipv6 ↔ type = some 0x86DD) ∧
      (r.kind = .ipv4 →
        r.proto = (headerField bs (o + 9) 1).map (BitVec.ofNat 8) ∧ r.srcFold = (headerField bs (o + 12) 4).map (BitVec.ofNat 32) ∧
        r.dstFold = (headerField bs (o + 16) 4).map (BitVec.ofNat 32) ∧
        r.dscp = (headerField bs (o + 1) 1).map (fun b => BitVec.ofNat 6 (b / 4)) ∧
        (∀ h, headerField bs o 1 = some h → 5 ≤ h % 16 → (r.proto = some 6 ∨ r.proto = some 17) →
          PortsFrom bs (some (o + 4 * (h % 16))) r) ∧
        ((∀ h, headerField bs o 1 = some h → h % 16 < 5) ∨ (r.proto ≠ some 6 ∧ r.proto ≠ some 17) → PortsFrom bs none r)) ∧
      (r.kind = .ipv6 →
        r.proto = (headerField bs (o + 6) 1).map (BitVec.ofNat 8) ∧ r.srcFold = headerFold bs (o + 8) ∧
        r.dstFold = headerFold bs (o + 24) ∧ r.dscp = (headerField bs o 2).map (fun w => BitVec.ofNat 6 (w / 64 % 64)) ∧
        (r.proto = some 6 ∨ r.proto = some 17 → PortsFrom bs (some (o + 40)) r) ∧
        (r.proto ≠ some 6 ∧ r.proto ≠ some 17 → PortsFrom bs none r)) ∧
      (r.kind = .other →
        r.proto = none ∧ r.srcFold = none ∧ r.dstFold = none ∧ r.dscp = none ∧ r.srcPort = none ∧ r.dstPort = none)

/-- PEER_RECORD (R118, R119, R120): a complete record passes as it is read. It is ignored and counted when its MAC is a group address or
misses, its node id is above 7 or the own one; otherwise it is counted taken, its estimate clamped and its measured-at taken from its
age, and it replaces the entry of the station when that is absent, expired, from the same node, or weaker. Any other write into a
PEER window passes and is counted in PEER_PARTIAL; that a FIXED burst of more than one beat is one of them is DEDUCED (log 8). -/
def Obligations.PeerRecordIsTakenAtReception : Prop :=
  (∀ (s : State) (w : WriteTx) (c : WinCopy) (d : List Lane), Receives s w d → InWindow w c .peer → CompleteFor c 16 w.txn d →
    ∃ t, exec (.peerRecord w.tag d) s = .next t ∧ Passes w.tag d s t ∧
      (let r := peerRecordOf c.record.order (laneBytes d)
       ((findStation s.sta r.mac = none ∨ 7 < r.node ∨ r.node = s.sig.node) →
         t.sig = { s.sig with peerIgnored := min (s.sig.peerIgnored + 1) 4294967295 } ∧ KeepsAllBut [.path, .sig] s t) ∧
       (∀ (i : Fin 128) (st : Station), findStation s.sta r.mac = some i → s.sta.stations[i] = some st → r.node ≤ 7 →
         r.node ≠ s.sig.node →
         t.sig = { s.sig with peerTaken := min (s.sig.peerTaken + 1) 4294967295 } ∧ KeepsAllBut [.path, .sig, .sta] s t ∧
           OthersKept i s t ∧ t.sta.unknown = s.sta.unknown ∧ t.sta.carry = s.sta.carry ∧
           (let p : Peer := { node := r.node, est := max (-1600) (min (-320) r.est), measuredAt := s.time.secs - r.age }
            let maxAge := (s.sig.profiles[st.roam]).peerMaxAge
            ((st.peer = none ∨
                ∃ q, st.peer = some q ∧ (maxAge < s.time.secs - q.measuredAt ∨ q.node = r.node ∨ q.est < p.est)) →
              t.sta.stations[i] = some { st with peer := some p }) ∧
            (∀ q, st.peer = some q → s.time.secs - q.measuredAt ≤ maxAge → q.node ≠ r.node → p.est ≤ q.est →
              t.sta.stations[i] = some st))))) ∧
  ∀ (s : State) (w : WriteTx) (c : WinCopy) (d : List Lane), Receives s w d → InWindow w c .peer → ¬CompleteFor c 16 w.txn d →
    ∃ t, exec (.upstreamWriteReceived w.tag d) s = .next t ∧ Passes w.tag d s t ∧
      t.sig = { s.sig with peerPartial := min (s.sig.peerPartial + 1) 4294967295 } ∧ KeepsAllBut [.path, .sig] s t

/-- COMMAND_CAPTURE (R3, R8, R158, R159): a complete 32-byte write of the command area is captured as the newest command and passes; while
the Command Queue holds 8 commands it is held and not captured. Every other write into the command area passes and is counted and
reported, with its offset in the control window, its length and its AXI ID. That a FIXED burst of more than one beat is one of them is
DEDUCED (log 8), and CMD_IGNORED saturates at 2^32 - 1 by the model's choice (log 20). -/
def Obligations.CommandAreaWritesAreCapturedOrIgnored : Prop :=
  (∀ (s : State) (w : WriteTx) (c : WinCopy) (d : List Lane), Receives s w d → InWindow w c .control →
    c.record.base ≤ w.txn.addr.toNat → w.txn.addr.toNat + 32 ≤ c.record.base + 0x800 → (w.txn.addr.toNat - c.record.base) % 32 = 0 →
    w.txn.len = 32 → covers w.txn = true → (∀ l ∈ d, l.strobe = true) →
    ∃ t, exec (.commandCapture w.tag d) s = .next t ∧ KeepsAllBut [.path, .cmd] s t ∧
      (s.cmd.queue.length < 8 → Passes w.tag d s t ∧ t.cmd = { s.cmd with queue := s.cmd.queue ++ [d.map Lane.byte] }) ∧
      (8 ≤ s.cmd.queue.length → HeldWith w.tag d s t ∧ t.cmd = { s.cmd with held := s.cmd.held ++ [w.tag] })) ∧
  (∀ (s : State) (w : WriteTx) (c : WinCopy) (d : List Lane), Receives s w d → InWindow w c .control →
    c.record.base ≤ w.txn.addr.toNat → w.txn.addr.toNat < c.record.base + 0x800 → c.record.base = s.control →
    ((w.txn.addr.toNat - c.record.base) % 32 ≠ 0 ∨ w.txn.len ≠ 32 ∨ covers w.txn = false ∨ ∃ l ∈ d, l.strobe = false) →
    ∃ t, exec (.upstreamWriteReceived w.tag d) s = .next t ∧ Passes w.tag d s t ∧
      (let u : State := { s with cmd := { s.cmd with ignored := min (s.cmd.ignored + 1) 4294967295 } }
       Reports [.path] [.cmdIgnored (w.txn.addr.toNat - c.record.base) w.txn.len w.txn.id] u t))

/-- TAIL_WORD_WRITE (R162, R164): a complete write of the tail word passes. A value below 256 that lies between the old tail and the head
becomes T and lets a pending LOST record be queued; any other value only increases TAIL_IGNORED. Any other
write into the control window beyond the command area passes without effect; that a FIXED burst of more than one beat is one of them is
DEDUCED (log 8). TAIL_IGNORED saturates at 2^32 - 1 by the model's choice (log 20). -/
def Obligations.TailWordMovesTheTail : Prop :=
  (∀ (s : State) (w : WriteTx) (c : WinCopy) (d : List Lane), Receives s w d → InWindow w c .control →
    w.txn.addr.toNat = c.record.base + 0x800 → w.txn.len = 4 → covers w.txn = true → (∀ l ∈ d, l.strobe = true) →
    s.cmd.head < 256 → s.cmd.tail < 256 →
    ∃ t, exec (.tailWordWrite w.tag d) s = .next t ∧ Passes w.tag d s t ∧
      (let v := leNat (d.map Lane.byte)
       (v < 256 → (v + 256 - s.cmd.tail) % 256 ≤ (s.cmd.head + 256 - s.cmd.tail) % 256 →
         KeepsAllBut [.path, .cmd, .own] s t ∧ t.cmd.tail = v ∧ t.cmd.head = s.cmd.head ∧ (t.irq = true ↔ s.cmd.head ≠ v) ∧
           (let u : State := { s with cmd := { s.cmd with tail := v } }
            (0 < s.cmd.lost → room u.cmd = true →
              t.cmd.waiting = s.cmd.waiting ++ [⟨.lost s.cmd.lost, s.time.secs⟩] ∧ t.cmd.lost = 0) ∧
            (s.cmd.lost = 0 ∨ room u.cmd = false → t.cmd = u.cmd ∧ t.own = s.own))) ∧
       (256 ≤ v ∨ (s.cmd.head + 256 - s.cmd.tail) % 256 < (v + 256 - s.cmd.tail) % 256 →
         t.cmd = { s.cmd with tailIgnored := min (s.cmd.tailIgnored + 1) 4294967295 } ∧ KeepsAllBut [.path, .cmd] s t))) ∧
  ∀ (s : State) (w : WriteTx) (c : WinCopy) (d : List Lane), Receives s w d → InWindow w c .control →
    c.record.base + 0x800 ≤ w.txn.addr.toNat →
    ¬(w.txn.addr.toNat = c.record.base + 0x800 ∧ w.txn.len = 4 ∧ covers w.txn = true ∧ ∀ l ∈ d, l.strobe = true) →
    ∃ t, exec (.upstreamWriteReceived w.tag d) s = .next t ∧ Passes w.tag d s t ∧ KeepsAllBut [.path] s t

/-- STAGING_WRITE_TRACKED outside a sweep (R149, R150, Table 9.5): the write passes, and the Chunk Map or OUTSIDE follows it by the first case
that applies. With every chunk COMPLETE, RECEIVING and VERIFIED become COMPLETE, which is reported, and COMPLETE and CORRUPT stay; with any
other chunk the state becomes RECEIVING. -/
def Obligations.StagingWriteFollowsTheChunkMap : Prop :=
  ∀ (s : State) (w : WriteTx) (bank : Bank) (d : List Lane), Receives s w d → s.img.staging.state ≠ .idle →
    s.img.staging.state ≠ .verifying → s.img.staging.bank = some bank → bank.base ≤ w.txn.addr.toNat →
    w.txn.addr.toNat < bank.base + 0x1000000 →
    ∃ t, exec (.stagingWriteTracked w.tag d) s = .next t ∧ Passes w.tag d s t ∧
      ChunksFollow w.txn d (w.txn.addr.toNat - bank.base) s t ∧
      (let g := s.img.staging
       let h := t.img.staging
       t.img = { s.img with staging := h, outside := t.img.outside } ∧ h = { g with state := h.state, chunks := h.chunks } ∧
       (g.state = .receiving ∨ g.state = .verified → ChunksComplete h →
         h.state = .complete ∧ Reports [.path, .img] [.stageComplete g.length g.version g.chunkCount] s t) ∧
       (g.state = .complete ∨ g.state = .corrupt → ChunksComplete h → h.state = g.state ∧ KeepsAllBut [.path, .img] s t) ∧
       (¬ChunksComplete h → h.state = .receiving ∧ KeepsAllBut [.path, .img] s t))

/-- A write into the staging bank interrupts the sweep of VERIFYING (R149, R150, R153): the write passes, and the Chunk Map or OUTSIDE
follows it; the sweep ends, W is 0, the data of an issued read will be discarded, VERIFY_RESULT reports INTERRUPTED with the read offset
and the offset of the write, and the state is COMPLETE, and reported so, or RECEIVING as the chunks stand after the write. The computed CRC
of that report is a free value (log 16). -/
def Obligations.StagingWriteInterruptsTheSweep : Prop :=
  ∀ (s : State) (w : WriteTx) (bank : Bank) (v : Sweep) (d : List Lane), Receives s w d → s.img.staging.state = .verifying →
    s.img.staging.bank = some bank → s.img.staging.sweep = some v → bank.base ≤ w.txn.addr.toNat →
    w.txn.addr.toNat < bank.base + 0x1000000 →
    ∃ t crc, exec (.stagingWriteTracked w.tag d) s = .next t ∧ KeepsAllBut [.path, .img, .cmd, .own, .free] s t ∧
      Passes w.tag d { s with path := { s.path with sweepWait := 0 } } t ∧
      ChunksFollow w.txn d (w.txn.addr.toNat - bank.base) s t ∧
      (let g := s.img.staging
       let h := t.img.staging
       let r : Report := .verifyResult .interrupted crc g.expectedCrc g.version v.offset (w.txn.addr.toNat - bank.base)
       t.img = { s.img with staging := h, outside := t.img.outside } ∧
       h = { g with state := h.state, chunks := h.chunks, sweep := none, stale := h.stale } ∧
       (∀ tag, v.step = .reading tag → h.stale = g.stale ++ [tag]) ∧ ((∀ tag, v.step ≠ .reading tag) → h.stale = g.stale) ∧
       (ChunksComplete h →
         h.state = .complete ∧ t.cmd = (offerAll [r, .stageComplete g.length g.version g.chunkCount] s).cmd ∧
           t.own = (offerAll [r, .stageComplete g.length g.version g.chunkCount] s).own) ∧
       (¬ChunksComplete h → h.state = .receiving ∧ t.cmd = (offerAll [r] s).cmd ∧ t.own = (offerAll [r] s).own))

/-- A write into the boot record sector that is not complete for the record at 0x1FFF_0000 is refused at its reception, counted and
reported (R143); a complete one is held for its check, behind those held before it (R3, R146). That a FIXED burst of more than one beat is
not complete is DEDUCED (log 8). -/
def Obligations.SectorWriteIsHeldOrRefused : Prop :=
  ∀ (s : State) (w : WriteTx) (d : List Lane), Receives s w d → 0x1FFF0000 ≤ w.txn.addr.toNat → w.txn.addr.toNat ≤ 0x1FFFFFFF →
    ∃ t, exec (.upstreamWriteReceived w.tag d) s = .next t ∧
      (w.txn.addr.toNat = 0x1FFF0000 ∧ w.txn.len = 32 ∧ covers w.txn = true ∧ (∀ l ∈ d, l.strobe = true) →
        HeldWith w.tag d s t ∧ t.img = { s.img with checks := s.img.checks ++ [w.tag] } ∧ KeepsAllBut [.path, .img] s t) ∧
      (¬(w.txn.addr.toNat = 0x1FFF0000 ∧ w.txn.len = 32 ∧ covers w.txn = true ∧ ∀ l ∈ d, l.strobe = true) →
        t.img = { s.img with refusedWrites := min (s.img.refusedWrites + 1) 4294967295 } ∧ t.path.ready = s.path.ready ∧
          (∀ x, findWrite t.path w.tag = some x → x.stage = .refused true) ∧
          Reports [.path, .img] [.writeRefused .recordSector w.txn.addr w.txn.len w.txn.id] s t)

/-- BOOT_RECORD_CHECK (R6, R146, R147): the oldest held record write is checked. It fails on the first of: a fault of R144; another bank
selected while staging is not VERIFIED; another version of that bank than the staging version; then it is refused, counted and
reported. Otherwise it is released unchanged and becomes the record copy, and a record that selects the bank in force with trial flag 0
clears the trial count and is reported CONFIRMED. When the written byte names no bank, the version in the report is a free value
(log 16). -/
def Obligations.BootRecordWriteIsChecked : Prop :=
  ∀ (s : State) (w : WriteTx) (rest : List Nat), s.img.checks = w.tag :: rest → findWrite s.path w.tag = some w →
    (let bs := laneBytes w.data
     let bank := (bankOf (recSelected bs)).getD .a
     let failed : Option RecordCause :=
       match recordFault bs with
       | some f => some (.fault f)
       | none =>
         if bank = s.img.bank then none
         else if s.img.staging.state ≠ .verified then some .notVerified
         else if recVersion bs bank ≠ s.img.staging.version then some .versionMismatch
         else none
     ∃ t version, exec .bootRecordCheck s = .next t ∧
      (bankOf (recSelected bs) = some bank → version = recVersion bs bank) ∧
      (∀ cause, failed = some cause →
        t.img = { s.img with checks := rest, refusedRecords := min (s.img.refusedRecords + 1) 4294967295 } ∧
          (∀ x, findWrite t.path w.tag = some x → x.stage = .refused true) ∧ t.path.ready = s.path.ready ∧
          Reports [.path, .img, .free] [.recordRefused cause (recSelected bs) version s.img.staging.state s.img.staging.version] s t) ∧
      (failed = none →
        t.path = { s.path with
          writes := s.path.writes.map fun x => if x.tag = w.tag then { x with stage := .ready } else x,
          ready := s.path.ready ++ [w.tag] } ∧
        (bank = s.img.bank ∧ recTrial bs = 0 →
          t.img = { s.img with checks := rest, record := some bs, trial := 0 } ∧
            Reports [.path, .img] [.confirmed bank (recVersion bs bank)] s t) ∧
        (¬(bank = s.img.bank ∧ recTrial bs = 0) →
          t.img = { s.img with checks := rest, record := some bs } ∧ KeepsAllBut [.path, .img] s t)))

/-- DESCRIPTOR_DISPOSITION (R7, R99, R100, R109): the descriptor at the front of the decision order is decided, released, and counted in
exactly one of FORWARDED, DISCARDED and PARKED of its slot: forwarded with its queue field set for a role, discarded with its discard flag
set, or parked with its queue field set to PARK. -/
def Obligations.DescriptorIsDecidedExactlyOnce : Prop :=
  ∀ (s : State) (w : WriteTx) (rest : List Nat) (c : WinCopy) (p : DescProfile), s.rew.order = w.tag :: rest →
    findWrite s.path w.tag = some w → w.win = some c → c.layout = .desc p →
    ∃ t bytes, exec .descriptorDisposition s = .next t ∧
      t.path = { s.path with
        writes := s.path.writes.map fun x => if x.tag = w.tag then { x with data := withBytes x.data bytes, stage := .ready } else x,
        ready := s.path.ready ++ [w.tag] } ∧
      t.rew.order = rest ∧ OtherEntries c.slot s.rew.counts t.rew.counts ∧
      KeepsAllBut [.path, .rew, .capture, .sta, .hold, .cls, .adm] s t ∧
      (let a := s.rew.counts[c.slot]
       let b := t.rew.counts[c.slot]
       let bs := laneBytes w.data
       let q := c.record.queues
       (b.forwarded = min (a.forwarded + 1) 4294967295 ∧ b.discarded = a.discarded ∧ b.parked = a.parked ∧
          (bytes = setQueue bs p q.urgent ∨ bytes = setQueue bs p q.normal ∨ bytes = setQueue bs p q.bulk)) ∨
       (b.forwarded = a.forwarded ∧ b.discarded = min (a.discarded + 1) 4294967295 ∧ b.parked = a.parked ∧
          bytes = setFlag bs p.discard) ∨
       (b.forwarded = a.forwarded ∧ b.discarded = a.discarded ∧ b.parked = min (a.parked + 1) 4294967295 ∧
          bytes = setQueue bs p q.park))

/-- Rewriting (R7): the four bits of the queue field receive the queue number, the bit of a flag receives the value of its named
condition, and every other bit, every strobe and the length stay as they were. -/
def Obligations.RewritingChangesOnlyTheField : Prop :=
  (∀ (bs : List Byte) (p : DescProfile) (q : BitVec 4) (i bit : Nat), p.queueByte < bs.length → p.queueBit ≤ 4 → bit < 8 →
    (setQueue bs p q).length = bs.length ∧
    (byteAt (setQueue bs p q) i).getLsbD bit =
      if i = p.queueByte ∧ p.queueBit ≤ bit ∧ bit < p.queueBit + 4 then q.getLsbD (bit - p.queueBit) else (byteAt bs i).getLsbD bit) ∧
  (∀ (bs : List Byte) (f : FlagPos) (i bit : Nat), f.byte < bs.length → f.bit < 8 → bit < 8 →
    (setFlag bs f).length = bs.length ∧
    (byteAt (setFlag bs f) i).getLsbD bit = if i = f.byte ∧ bit = f.bit then f.value else (byteAt bs i).getLsbD bit) ∧
  ∀ (d : List Lane) (bs : List Byte), bs.length = d.length →
    laneBytes (withBytes d bs) = bs ∧ (withBytes d bs).map Lane.strobe = d.map Lane.strobe

/-- Steps 2 to 4 of a disposition (R102, R103, R104, R106, R132), for a captured frame whose unicast destination is a station: a CLOSED
gate discards; with the gate OPEN a station in HANDOFF has the descriptor parked while its hold list has room, as a reference with the
next arrival number, and discarded with the hold overflow counted when it has none. The Flow Table and the admission counters are
untouched, the capture is consumed, and no other station changes. -/
def Obligations.GateAndHandoffDecideBeforeClassification : Prop :=
  ∀ (s : State) (w : WriteTx) (rest : List Nat) (d : Descriptor) (cap : Capture) (i : Fin 128) (st : Station),
    s.rew.order = w.tag :: rest → findWrite s.path w.tag = some w → descriptorOf w = some d →
    (s.capture.records.find? fun r => r.key == d.buffer) = some cap → findStation s.sta cap.dst = some i →
    s.sta.stations[i] = some st →
    ∃ t, exec .descriptorDisposition s = .next t ∧
      (st.closed = true ∨ st.state = .handoff →
        t.capture = { s.capture with records := s.capture.records.filter fun r => r.key != d.buffer } ∧
        OthersKept i s t ∧ t.cls = s.cls ∧ t.adm = s.adm) ∧
      (st.closed = true →
        t.sta.stations[i] = some { st with discarded := min (st.discarded + 1) 4294967295 } ∧ t.hold = s.hold ∧
        t.rew.counts[d.slot].discarded = min (s.rew.counts[d.slot].discarded + 1) 4294967295) ∧
      (∀ (k : Fin 16) (o : Occupied), st.closed = false → st.state = .handoff → st.slot = some k → s.hold.slots[k] = .occupied o →
        (let n := min (o.requests + 1) 255
         OtherEntries k s.hold.slots t.hold.slots ∧
         (o.list.length < 32 →
           t.hold.slots[k] = .occupied { o with requests := n, list := o.list ++ [⟨d.addr, d.len, d.slot, o.requests⟩] } ∧
           t.hold.free = s.hold.free - 1 ∧
           t.sta.stations[i] = some { st with parked := min (st.parked + 1) 4294967295, active := true } ∧
           t.rew.counts[d.slot].parked = min (s.rew.counts[d.slot].parked + 1) 4294967295) ∧
         (32 ≤ o.list.length →
           t.hold.slots[k] = .occupied { o with requests := n } ∧ t.hold.free = s.hold.free ∧
           t.sta.stations[i] =
             some { st with discarded := min (st.discarded + 1) 4294967295, overflow := min (st.overflow + 1) 65535 } ∧
           t.rew.counts[d.slot].discarded = min (s.rew.counts[d.slot].discarded + 1) 4294967295)))

/-- Step 5 of a disposition (R101, R102, R105, R106, R109): a descriptor whose frame is not captured is forwarded to NORMAL and counted
UNCAPTURED, and nothing is learnt of it; one whose frame is captured is classified and admitted as one operation, with its station when
its gate is OPEN and it is not in HANDOFF, and with none when its destination is a group address or misses, a miss being counted
UNRESOLVED. The queue field takes the number of the role answered, FORWARDED is counted, and a station counts it and is marked active. -/
def Obligations.OtherDescriptorsAreClassifiedAndForwarded : Prop :=
  ∀ (s : State) (w : WriteTx) (rest : List Nat) (d : Descriptor), s.rew.order = w.tag :: rest → findWrite s.path w.tag = some w →
    descriptorOf w = some d →
    ∃ t, exec .descriptorDisposition s = .next t ∧
      (let forwarded (q : BitVec 4) (uncaptured unresolved : Nat) : Prop :=
         let a := s.rew.counts[d.slot]
         t.path = { s.path with
           writes := s.path.writes.map fun x =>
             if x.tag = w.tag then { x with data := withBytes x.data (setQueue d.bytes d.layout q), stage := .ready } else x,
           ready := s.path.ready ++ [w.tag] } ∧
         t.rew.order = rest ∧ OtherEntries d.slot s.rew.counts t.rew.counts ∧
         t.rew.counts[d.slot] = { a with
           forwarded := min (a.forwarded + 1) 4294967295, uncaptured := min (a.uncaptured + uncaptured) 4294967295,
           unresolved := min (a.unresolved + unresolved) 4294967295 }
       let queue (role : Role) : BitVec 4 :=
         match role with
         | .urgent => d.record.queues.urgent
         | .normal => d.record.queues.normal
         | .bulk => d.record.queues.bulk
       ((∀ r ∈ s.capture.records, r.key ≠ d.buffer) → s.rew.counts[d.slot].unresolved ≤ 4294967295 →
         forwarded d.record.queues.normal 1 0 ∧ KeepsAllBut [.path, .rew] s t) ∧
       ∀ cap : Capture, (s.capture.records.find? fun r => r.key == d.buffer) = some cap →
         s.rew.counts[d.slot].uncaptured ≤ 4294967295 → s.rew.counts[d.slot].unresolved ≤ 4294967295 →
         t.capture = { s.capture with records := s.capture.records.filter fun r => r.key != d.buffer } ∧
         (∀ (answer : ClassAnswer) (c : Classifier) (role : Role) (u : State), findStation s.sta cap.dst = none →
           classify (some cap) d.len s.time.secs none s.cls = (answer, c) →
           admission d.slot d.len answer none false { s with cls := c } = (role, u) →
           forwarded (queue role) 0 (if isGroup cap.dst = true then 0 else 1) ∧ t.cls = u.cls ∧ t.adm = u.adm ∧
             KeepsAllBut [.path, .rew, .capture, .cls, .adm] s t) ∧
         ∀ (i : Fin 128) (st : Station) (answer : ClassAnswer) (c : Classifier) (role : Role) (u : State),
           findStation s.sta cap.dst = some i → s.sta.stations[i] = some st → st.closed = false → st.state ≠ .handoff →
           classify (some cap) d.len s.time.secs (some i) s.cls = (answer, c) →
           admission d.slot d.len answer (some i) st.noUrgent { s with cls := c } = (role, u) →
           forwarded (queue role) 0 0 ∧ t.cls = u.cls ∧ t.adm = u.adm ∧ OthersKept i s t ∧
             t.sta.unknown = s.sta.unknown ∧ t.sta.carry = s.sta.carry ∧
             t.sta.stations[i] = some { st with
               forwarded := min (st.forwarded + 1) 4294967295, active := true,
               lastUrgent := if role = .urgent then some s.time.secs else st.lastUrgent } ∧
             KeepsAllBut [.path, .rew, .capture, .sta, .cls, .adm] s t)

/-- Admission (R86 to R90): a BULK, NORMAL or DEMOTED flow goes to its role untested. An URGENT flow of a NO_URGENT station goes to NORMAL,
counted WITHHELD. Otherwise the flow test comes first and the cap test second; both passed, the length enters the period bytes and the
urgent counter, the station is stamped and the two flags are set; the first failed test names the count, and the two flags stay as they
were. That a length of 0 fails the flow test where the period bytes exceed the allowance is the model's choice (log 30). -/
def Obligations.UrgentAdmissionTestsFlowThenCap : Prop :=
  ∀ (slot : Fin 16) (len allowance : Nat) (f : Fin 256) (e : Flow) (station : Option (Fin 128)) (noUrgent : Bool) (s : State),
    s.cls.flows[f] = some e →
    (let a := s.adm.slots[slot]
     admission slot len ⟨.bulk, allowance, some f⟩ station noUrgent s = (.bulk, s) ∧
     admission slot len ⟨.normal, allowance, some f⟩ station noUrgent s = (.normal, s) ∧
     admission slot len ⟨.demoted, allowance, some f⟩ station noUrgent s = (.normal, s) ∧
     ∃ role t, admission slot len ⟨.urgent, allowance, some f⟩ station noUrgent s = (role, t) ∧
       KeepsAllBut [.adm, .cls, .sta] s t ∧ OtherEntries slot s.adm.slots t.adm.slots ∧ OtherEntries f s.cls.flows t.cls.flows ∧
       (noUrgent = true →
         role = .normal ∧ t.adm.slots[slot] = { a with withheld := min (a.withheld + 1) 4294967295 } ∧
           t.adm = { s.adm with slots := t.adm.slots } ∧ t.cls = s.cls ∧ t.sta = s.sta) ∧
       (noUrgent = false → e.allowance * 64 < e.periodBytes + len →
         role = .normal ∧ t.adm.slots[slot] = { a with spillAllowance := min (a.spillAllowance + 1) 4294967295 } ∧
           t.adm = { s.adm with slots := t.adm.slots } ∧ t.cls = { s.cls with flows := t.cls.flows } ∧
           t.cls.flows[f] = some { e with overFlag := true } ∧ t.sta = s.sta) ∧
       (noUrgent = false → e.periodBytes + len ≤ e.allowance * 64 → a.cap ≠ 0 → a.cap * 64 < a.urgent + len →
         role = .normal ∧ t.adm.slots[slot] = { a with spillCap := min (a.spillCap + 1) 4294967295 } ∧
           t.adm = { s.adm with slots := t.adm.slots } ∧ t.cls = s.cls ∧ t.sta = s.sta) ∧
       (noUrgent = false → e.periodBytes + len ≤ e.allowance * 64 → (a.cap = 0 ∨ a.urgent + len ≤ a.cap * 64) →
         role = .urgent ∧ t.adm.slots[slot] = { a with urgent := a.urgent + len, admitted := min (a.admitted + 1) 4294967295 } ∧
           t.cls = { s.cls with flows := t.cls.flows } ∧ t.cls.flows[f] = some { e with periodBytes := e.periodBytes + len } ∧
           t.adm = { s.adm with slots := t.adm.slots, admitted := true, activity := true } ∧
           t.sta = { s.sta with stations := t.sta.stations } ∧
           (station = none → t.sta = s.sta) ∧
           ∀ i st, station = some i → s.sta.stations[i] = some st →
             t.sta.stations[i] = some { st with lastUrgent := some s.time.secs } ∧ OthersKept i s t))

/-- Classification (R68, R70, R72 to R75): a flow in the table answers with its entry, whose last-seen, station and descriptor count are brought
up; a new flow is decided by the lowest Match List slot whose rule matches, or is NORMAL with allowance 0, and is learnt in the lowest
free entry, or in that of the oldest unpinned flow when none is free, which is evicted. A rule matches when each of its conditions is
disabled or true (R67, Tables 4.2 and 4.3), and the parts of a key whose field is absent are 0. The default count, to which R68 gives no
range of its own, saturates at 2^32 - 1: the model's choice (log 20). -/
def Obligations.FlowsAreLearntOnceAndThenFound : Prop :=
  (∀ (r : Rule) (cap : Capture) (len : Nat),
    r.matches cap len = true ↔ (Disabled r.c0 ∨ ConditionTrue r.c0 cap len) ∧ (Disabled r.c1 ∨ ConditionTrue r.c1 cap len)) ∧
  (∀ cap : Capture, (∀ v, cap.proto = some v → cap.flowKey.proto = v) ∧ (cap.proto = none → cap.flowKey.proto = 0) ∧
    (∀ v, cap.srcFold = some v → cap.flowKey.srcFold = v) ∧ (cap.srcFold = none → cap.flowKey.srcFold = 0) ∧
    (∀ v, cap.dstFold = some v → cap.flowKey.dstFold = v) ∧ (cap.dstFold = none → cap.flowKey.dstFold = 0) ∧
    (∀ v, cap.srcPort = some v → cap.flowKey.srcPort = v) ∧ (cap.srcPort = none → cap.flowKey.srcPort = 0) ∧
    (∀ v, cap.dstPort = some v → cap.flowKey.dstPort = v) ∧ (cap.dstPort = none → cap.flowKey.dstPort = 0)) ∧
  ∀ (c : Classifier) (cap : Capture) (len now : Nat) (station : Option (Fin 128)),
    (∀ (i : Fin 256) (e : Flow), findFlow c.flows cap.flowKey = some i → c.flows[i] = some e →
      ∃ a c', classify (some cap) len now station c = (a, c') ∧ a.cls = e.cls ∧ a.allowance = e.allowance ∧ a.entry = some i ∧
        c'.flows[i] = some { e with lastSeen := now, count := min (e.count + 1) 4294967295, station := station } ∧
        OtherEntries i c.flows c'.flows ∧ { c' with flows := c.flows } = c) ∧
    (∀ i : Fin 256, findFlow c.flows cap.flowKey = none →
      (c.flows[i] = none ∧ (∀ j : Fin 256, j < i → c.flows[j] ≠ none) ∨
        ∃ f, c.flows[i] = some f ∧ f.pinned = false ∧ (∀ j : Fin 256, c.flows[j] ≠ none) ∧
          ∀ (j : Fin 256) (g : Flow), c.flows[j] = some g → g.pinned = false → f.lastSeen < g.lastSeen ∨ f.lastSeen = g.lastSeen ∧ i ≤ j) →
      ∃ a c' e, classify (some cap) len now station c = (a, c') ∧ a.entry = some i ∧ c'.flows[i] = some e ∧ e.key = cap.flowKey ∧
        e.cls = a.cls ∧ e.allowance = a.allowance ∧ e.station = station ∧ e.pinned = false ∧ e.periodBytes = 0 ∧ e.overFlag = false ∧
        e.overCount = 0 ∧ e.lastSeen = now ∧ e.count = 1 ∧ OtherEntries i c.flows c'.flows ∧
        c'.learned = min (c.learned + 1) 4294967295 ∧ (c.flows[i] = none → c'.evicted = c.evicted) ∧
        (c.flows[i] ≠ none → c'.evicted = min (c.evicted + 1) 4294967295) ∧ c'.rules = c.rules ∧ c'.aged = c.aged ∧ c'.removed = c.removed ∧
        (∀ (k : Fin 32) (r : Rule), c.rules[k] = some r → r.matches cap len = true →
          (∀ j : Fin 32, j < k → ∀ r', c.rules[j] = some r' → r'.matches cap len = false) →
          a.cls = r.cls ∧ a.allowance = r.allowance ∧ c'.decisions[k] = min (c.decisions[k] + 1) 4294967295 ∧
            OtherEntries k c.decisions c'.decisions ∧ c'.defaultCount = c.defaultCount) ∧
        ((∀ (k : Fin 32) (r : Rule), c.rules[k] = some r → r.matches cap len = false) →
          a.cls = .normal ∧ a.allowance = 0 ∧ c'.decisions = c.decisions ∧ c'.defaultCount = min (c.defaultCount + 1) 4294967295)) ∧
    classify none len now station c = (⟨.normal, 0, none⟩, c)

/-- STATUS_RECORD_DECISION (R34, R107, R108, R109): a record that resolves hands its sample over, is counted STATUS_TAKEN, and with the gate
CLOSED gets the drop mark and is counted STATUS_DROPPED, with the gate OPEN leaves as written and marks the station active; a record that
does not is counted STATUS_UNKNOWN and leaves as written, and a unicast MAC not on the recent-unknown list is reported and listed. -/
def Obligations.StatusRecordGetsTheDropMarkOfAClosedGate : Prop :=
  ∀ (s : State) (w : WriteTx) (rest : List Nat) (r : StatusRecord), s.rew.order = w.tag :: rest → findWrite s.path w.tag = some w →
    statusOf w = some r →
    ∃ t bytes, exec .statusRecordDecision s = .next t ∧
      t.path = { s.path with
        writes := s.path.writes.map fun x => if x.tag = w.tag then { x with data := withBytes x.data bytes, stage := .ready } else x,
        ready := s.path.ready ++ [w.tag] } ∧
      t.rew.order = rest ∧ OtherEntries r.slot s.rew.counts t.rew.counts ∧
      (let a := s.rew.counts[r.slot]
       (∀ i st, findStation s.sta r.mac = some i → s.sta.stations[i] = some st →
         t.sig = { s.sig with samples := s.sig.samples ++ [⟨i, st.mac, r.raw⟩] } ∧
         (st.closed = true →
           bytes = setFlag r.bytes r.layout.drop ∧ KeepsAllBut [.path, .rew, .sig] s t ∧
             t.rew.counts[r.slot] =
               { a with statusTaken := min (a.statusTaken + 1) 4294967295, statusDropped := min (a.statusDropped + 1) 4294967295 }) ∧
         (st.closed = false →
           bytes = r.bytes ∧ KeepsAllBut [.path, .rew, .sig, .sta] s t ∧ OthersKept i s t ∧
             t.sta.stations[i] = some { st with active := true } ∧ t.sta.unknown = s.sta.unknown ∧
             t.rew.counts[r.slot] = { a with statusTaken := min (a.statusTaken + 1) 4294967295 })) ∧
       (findStation s.sta r.mac = none →
         bytes = r.bytes ∧ t.rew.counts[r.slot] = { a with statusUnknown := min (a.statusUnknown + 1) 4294967295 } ∧
         (isGroup r.mac = true ∨ r.mac ∈ s.sta.unknown → KeepsAllBut [.path, .rew] s t) ∧
         (isGroup r.mac = false → r.mac ∉ s.sta.unknown →
           Reports [.path, .rew, .sta] [.unknownStation r.mac r.slot r.raw] s t ∧ t.sta.stations = s.sta.stations ∧
             t.sta.carry = s.sta.carry ∧
             t.sta.unknown = (if s.sta.unknown.length < 16 then s.sta.unknown else s.sta.unknown.tail) ++ [r.mac])))

/-- SIGNAL_SAMPLE (R115, R116, R117, R121): the oldest sample handed over for a station is taken. A sample whose record is gone or holds another
MAC is counted lost, one of 0, +127 or -128 dBm invalid. A valid one, clamped to -100..-20, sets an unset estimate to 16 times itself, and
moves a set one by the difference over 2^k toward zero, by at least 1. A crossing of 16·T_weak in a selected direction is reported first;
the state machine then runs on the station with its new estimate, and its report follows. Its deadline is uptime + candidate-timeout in 32
bits (log 21). A sample waits while the visit of an uptime second is due, and one whose record was emptied and installed again with the
same MAC is taken: the model's choices (log 5, log 31). -/
def Obligations.SampleMovesTheEstimate : Prop :=
  (∀ (s : State) (x : Sample) (before rest : List Sample), s.sig.samples = before ++ x :: rest → (∀ y ∈ before, y.station ≠ x.station) →
    s.time.visitDue = false →
    ∃ t, exec (.signalSample x.station.val) s = .next t ∧
      ((∀ st, s.sta.stations[x.station] = some st → st.mac ≠ x.mac) →
        t.sig = { s.sig with samples := before ++ rest, samplesLost := min (s.sig.samplesLost + 1) 4294967295 } ∧ KeepsAllBut [.sig] s t) ∧
      ∀ st, s.sta.stations[x.station] = some st → st.mac = x.mac →
        (x.raw.toInt = 0 ∨ x.raw.toInt = 127 ∨ x.raw.toInt = -128 →
          t.sig = { s.sig with samples := before ++ rest, samplesInvalid := min (s.sig.samplesInvalid + 1) 4294967295 } ∧
            KeepsAllBut [.sig] s t) ∧
        (x.raw.toInt ≠ 0 → x.raw.toInt ≠ 127 → x.raw.toInt ≠ -128 →
          ∃ (e : Int) (crossed : List Report),
            (let prof := s.sig.profiles[st.roam]
             let c : Int := max (-100) (min (-20) x.raw.toInt)
             let weak : Int := 16 * prof.tWeak
             let u : Station := { st with away := false, samples := min (st.samples + 1) 65535, est := some e }
             let r := roamStep prof s.time.secs ((s.time.secs + prof.candidateTimeout) % 4294967296) x.station u e
             t.sig = { s.sig with samples := before ++ rest, samplesTaken := min (s.sig.samplesTaken + 1) 4294967295 } ∧
             t.sta.stations[x.station] = some r.1 ∧ OthersKept x.station s t ∧ t.sta.unknown = s.sta.unknown ∧ t.sta.carry = s.sta.carry ∧
             Reports [.sig, .sta] (crossed ++ r.2.toList) s t ∧ (st.est = none → e = 16 * c ∧ crossed = []) ∧
             ∀ e₀, st.est = some e₀ →
               (16 * c = e₀ → e = e₀) ∧
               (16 * c ≠ e₀ → (16 * c - e₀).natAbs < 2 ^ prof.shift → e = if e₀ < 16 * c then e₀ + 1 else e₀ - 1) ∧
               (2 ^ prof.shift ≤ (16 * c - e₀).natAbs → e = e₀ + (16 * c - e₀).tdiv (2 ^ prof.shift : Nat)) ∧
               ((e₀ < weak ↔ e < weak) → crossed = []) ∧
               (weak ≤ e₀ → e < weak →
                 crossed = if prof.cross = .falling ∨ prof.cross = .both then [.signalCross false x.station st.mac e c weak] else []) ∧
               (e₀ < weak → weak ≤ e →
                 crossed = if prof.cross = .rising ∨ prof.cross = .both then [.signalCross true x.station st.mac e c weak] else [])))) ∧
  ∀ (s : State) (i : Nat), s.time.visitDue = true → exec (.signalSample i) s = .next s

/-- The roaming state machine on one valid sample with the estimate at `e` (R121 to R124): at most one transition, with the dwell, the
deadline and the report of it; HANDOFF and HOLDOFF are left as they are. -/
def Obligations.RoamingMakesAtMostOneTransition : Prop :=
  ∀ (prof : RoamProfile) (now deadline : Nat) (i : Fin 128) (st : Station) (e : Int),
    (let weak := 16 * prof.tWeak
     let strong := 16 * (prof.tWeak + prof.hys)
     let counted := { st with dwell := min (st.dwell + 1) 63 }
     let recent := ∃ u, st.lastUrgent = some u ∧ now - u ≤ prof.urgentRecent
     (st.state = .settled → roamStep prof now deadline i st e = (if e < weak then { st with state := .watch, dwell := 0 } else st, none)) ∧
     (st.state = .watch → strong ≤ e → roamStep prof now deadline i st e = ({ st with state := .settled, dwell := 0 }, none)) ∧
     (st.state = .watch → e < strong →
       (counted.dwell < prof.dwell ∨ st.peer = none ∨ (∃ p, st.peer = some p ∧ prof.peerMaxAge < now - p.measuredAt) →
         roamStep prof now deadline i st e = (counted, none)) ∧
       ∀ p, prof.dwell ≤ counted.dwell → st.peer = some p → now - p.measuredAt ≤ prof.peerMaxAge →
         ∀ (raised : Bool), (raised = true ↔ recent ∧ 16 * prof.tFloor ≤ e) →
           (let need : Int := 16 * ((if raised = true then prof.margin + prof.gameMargin else prof.margin : Nat) : Int)
            (need ≤ p.est - e →
              roamStep prof now deadline i st e =
                ({ counted with state := .candidate, deadline := deadline },
                 some (.handoffCandidate i st.mac e p.est p.node (p.est - e) raised))) ∧
            (p.est - e < need → roamStep prof now deadline i st e = (counted, none)))) ∧
     (st.state = .candidate →
       roamStep prof now deadline i st e =
         if strong ≤ e then ({ st with state := .settled, dwell := 0, deadline := 0 }, some (.candidateWithdrawn i st.mac e)) else (st, none)) ∧
     (st.state = .handoff ∨ st.state = .holdoff → roamStep prof now deadline i st e = (st, none)))

/-- WRITE_SIDE_GRANT (R2, R4, R14): while own writes are requested the oldest request is granted; otherwise the pass-through write that
became ready first, among those with no older write of their ID still to leave, is issued with its address, attributes and data as they
stand, and leaves its list; no other write is changed but for its places in the lists. A grant with nothing to grant changes nothing: the
model's choice (log 1). -/
def Obligations.WriteSideGrantsOwnWritesFirst : Prop :=
  (∀ (s : State) (o : OwnWrite) (rest : List OwnWrite), s.own.requests = o :: rest →
    ∃ t, exec .writeSideGrant s = .next t ∧ t.own = ⟨rest, s.own.issued ++ [(s.path.nextTag, o.kind)]⟩ ∧
      t.ports = s.ports ++ [.downOwnWrite s.path.nextTag o.addr o.data] ∧
      t.path = { s.path with nextTag := s.path.nextTag + 1 } ∧ KeepsAllBut [.own, .ports, .path] s t) ∧
  (∀ (s : State) (before after : List Nat) (older newer : List WriteTx) (w : WriteTx), s.own.requests = [] →
    s.path.ready = before ++ w.tag :: after → s.path.writes = older ++ w :: newer → (∀ x ∈ older ++ newer, x.tag ≠ w.tag) →
    (∀ x ∈ older, x.txn.id = w.txn.id → x.inside = false) →
    (∀ tag ∈ before, ∀ x, findWrite s.path tag = some x → oldestInside s.path.writes tag x.txn.id = false) →
    ∃ t, exec .writeSideGrant s = .next t ∧ t.ports = s.ports ++ [.downWrite w.tag w.txn.addr.toNat w.txn w.data] ∧
      t.path = { s.path with
        ready := s.path.ready.filter fun x => x != w.tag,
        writes := settleFrom [] (older ++ { w with stage := .issued, listed := false, reserved := false } :: newer) } ∧
      KeepsAllBut [.ports, .path] s t) ∧
  ∀ s : State, s.own.requests = [] → s.path.ready = [] → exec .writeSideGrant s = .next s

/-- READ_SIDE_GRANT (R15): the boot-record read first; then, with a sweep read waiting and eligible and W at least N, the sweep read, W
becoming 0; then the pass-through read that arrived first, W increasing by 1 up to 64 when a sweep read was waiting and eligible; then the
sweep read, W becoming 0. A sweep read is eligible unless its yield flag and the urgent-activity flag are both set. A sweep's read does not
wait for the return of a read of an ended sweep: the model's choice (log 32). -/
def Obligations.ReadSideSharesWithTheSweep : Prop :=
  (∀ s : State, s.boot = .requesting →
    ∃ t, exec .readSideGrant s = .next t ∧ t.boot = .reading s.path.nextTag ∧
      t.ports = s.ports ++ [.downOwnRead s.path.nextTag 0x1FFF0000 32] ∧ t.path = { s.path with nextTag := s.path.nextTag + 1 } ∧
      KeepsAllBut [.boot, .ports, .path] s t) ∧
  (∀ (s : State) (v : Sweep) (bank : Bank), s.boot ≠ .requesting → s.img.staging.sweep = some v → s.img.staging.bank = some bank →
    v.step = .waiting → (v.yields = false ∨ s.adm.activity = false) →
    (v.share ≤ s.path.sweepWait ∨ ∀ r ∈ s.path.reads, r.issued = true) →
    ∃ t, exec .readSideGrant s = .next t ∧ t.ports = s.ports ++ [.downOwnRead s.path.nextTag (bank.base + v.offset) 128] ∧
      t.path = { s.path with nextTag := s.path.nextTag + 1, sweepWait := 0 } ∧
      t.img.staging.sweep = some { v with step := .reading s.path.nextTag } ∧ KeepsAllBut [.ports, .path, .img] s t) ∧
  ∀ (s : State) (before after : List ReadTx) (r : ReadTx), s.boot ≠ .requesting → s.path.reads = before ++ r :: after →
    (∀ x ∈ before, x.issued = true) → r.issued = false → (∀ x ∈ before ++ after, x.tag ≠ r.tag) →
    (∀ eligible : Bool,
      (eligible = true ↔
        ∃ v, s.img.staging.sweep = some v ∧ v.step = .waiting ∧ (v.yields = false ∨ s.adm.activity = false)) →
      (∀ v, s.img.staging.sweep = some v → eligible = true → s.path.sweepWait < v.share) →
      ∃ t, exec .readSideGrant s = .next t ∧ t.ports = s.ports ++ [.downRead r.tag r.downAddr r.txn] ∧
        t.path = { s.path with
          reads := before ++ { r with issued := true } :: after,
          sweepWait := if eligible = true then min (s.path.sweepWait + 1) 64 else s.path.sweepWait } ∧
        KeepsAllBut [.ports, .path] s t)

/-- DOWNSTREAM_RESPONSE and REFUSED_WRITE_RESPONSE (R5, R6): the response to a read goes upstream as returned, and so does the response to
a write when every older write of its ID has had its own, followed by the kept responses of the newer writes of the ID, in arrival order,
as far as each has been answered; a refused write, its beats accepted, is answered SLVERR under the same condition and followed by the same.
A write's response behind an older unanswered write of its ID is kept. A refused write's event before its turn changes nothing: the model's
choice (log 1). -/
def Obligations.ResponsesReturnInArrivalOrder : Prop :=
  (∀ (s : State) (before after : List ReadTx) (r : ReadTx) (resps : List Resp) (data : List Byte),
    s.path.reads = before ++ r :: after → r.issued = true → (∀ x ∈ before ++ after, x.tag ≠ r.tag) →
    ∃ t, exec (.downstreamResponse r.tag (.read resps data)) s = .next t ∧
      t.ports = s.ports ++ [.upReadResp r.tag r.txn.id resps data] ∧ t.path = { s.path with reads := before ++ after } ∧
      KeepsAllBut [.ports, .path] s t) ∧
  (∀ (s : State) (older newer : List WriteTx) (w : WriteTx) (resp : Resp), s.path.writes = older ++ w :: newer → w.stage = .issued →
    (∀ x ∈ older ++ newer, x.tag ≠ w.tag) →
    ((∀ x ∈ older, x.txn.id ≠ w.txn.id) →
      ∃ t, exec (.downstreamResponse w.tag (.write resp)) s = .next t ∧ Returned older newer w resp s t) ∧
    (∀ (x : WriteTx) (first others : List WriteTx), older = first ++ x :: others → (∀ y ∈ first, y.txn.id ≠ w.txn.id) →
      x.txn.id = w.txn.id → (∀ r, x.stage ≠ .answered r) →
      ∃ t, exec (.downstreamResponse w.tag (.write resp)) s = .next t ∧
        t.path = { s.path with writes := older ++ { w with stage := .answered resp } :: newer } ∧ KeepsAllBut [.path] s t)) ∧
  ∀ (s : State) (older newer : List WriteTx) (w : WriteTx), s.path.writes = older ++ w :: newer → w.stage = .refused true →
    (∀ x ∈ older ++ newer, x.tag ≠ w.tag) →
    ((∀ x ∈ older, x.txn.id ≠ w.txn.id) →
      ∃ t, exec (.refusedWriteResponse w.tag) s = .next t ∧ Returned older newer w .slverr s t) ∧
    ((∃ x ∈ older, x.txn.id = w.txn.id) → exec (.refusedWriteResponse w.tag) s = .next s)

/-- A report offered (R162): the free space is 255 less the slots in use and the reports waiting; a pending LOST record is queued first
when there is room, then the report; without room the report is dropped and counted. -/
def Obligations.OfferedReportIsQueuedOrCounted : Prop :=
  ∀ (s : State) (r : Report), s.cmd.head < 256 → s.cmd.tail < 256 →
    (let used := (s.cmd.head + 256 - s.cmd.tail) % 256
     let n := s.cmd.waiting.length
     let now := s.time.secs
     (255 ≤ used + n ∨ 16 ≤ n →
       (offer r s).cmd = { s.cmd with lost := min (s.cmd.lost + 1) 65535 } ∧ (offer r s).own = s.own) ∧
     (used + n < 255 → n < 16 → s.cmd.lost = 0 → (offer r s).cmd = { s.cmd with waiting := s.cmd.waiting ++ [⟨r, now⟩] }) ∧
     (used + n < 254 → n < 15 → 0 < s.cmd.lost →
       (offer r s).cmd = { s.cmd with waiting := s.cmd.waiting ++ [⟨.lost s.cmd.lost, now⟩, ⟨r, now⟩], lost := 0 }) ∧
     (used + n < 255 → n < 16 → (used + n = 254 ∨ n = 15) → 0 < s.cmd.lost →
       (offer r s).cmd = { s.cmd with waiting := s.cmd.waiting ++ [⟨.lost s.cmd.lost, now⟩], lost := 1 }) ∧
     KeepsAllBut [.cmd, .own] s (offer r s))

/-- The end of a command (R159, R160): its entry leaves the queue, the Command Unit is free, the COMPLETION carries tag, kind code, status
and, with DONE only, the result; and the oldest held command write is captured into the freed place and becomes ready. -/
def Obligations.CompletionFreesTheQueuePlace : Prop :=
  ∀ (s : State) (c : List Byte) (rest : List (List Byte)) (status : Status) (result : List Byte), s.cmd.queue = c :: rest →
    rest.length < 8 → s.cmd.lost = 0 → s.cmd.waiting.length < 16 → 0 < freeSpace s.cmd →
    (let t := completeCommand status result s
     let r : Report := .completion status (leNat (slice c 2 2)) (byteAt c 0) (if status = .done then result else [])
     t.cmd.waiting = s.cmd.waiting ++ [⟨r, s.time.secs⟩] ∧ t.cmd.executing = .idle ∧ KeepsAllBut [.cmd, .own, .path] s t ∧
       (s.cmd.held = [] → t.cmd.queue = rest ∧ t.path = s.path) ∧
       ∀ (tag : Nat) (others : List Nat) (w : WriteTx), s.cmd.held = tag :: others → findWrite s.path tag = some w →
         t.cmd.queue = rest ++ [laneBytes w.data] ∧ t.cmd.held = others ∧
           t.path = { s.path with
             writes := s.path.writes.map fun x => if x.tag = tag then { x with stage := .ready } else x,
             ready := s.path.ready ++ [tag] })

/-- REPORT_RECORD_RESPONSE and HEAD_WORD_RESPONSE (R163, R164): a report record answered OKAY advances H, is followed by the head word, and
leaves the waiting list; answered with an error it leaves the list too, REPORT_FAULTS increases and H stands; the next report takes the
slot at H. An error to the head word increases REPORT_FAULTS and H stands. IRQ is high exactly while H and T differ. REPORT_FAULTS saturates
at 2^32 - 1 by the model's choice (log 20). -/
def Obligations.ReportRingAdvancesOnOkay : Prop :=
  (∀ (s : State) (before after : List (Nat × OwnKind)) (tag : Nat) (resp : Resp) (w : Waiting) (rest : List Waiting),
    s.own.issued = before ++ (tag, .report) :: after → (∀ e ∈ before ++ after, e.1 ≠ tag) → s.cmd.waiting = w :: rest →
    ∃ t, exec (.reportRecordResponse tag resp) s = .next t ∧ KeepsAllBut [.cmd, .own] s t ∧ t.own.issued = before ++ after ∧
      t.cmd.waiting = rest ∧ (t.irq = true ↔ t.cmd.head ≠ t.cmd.tail) ∧
      (resp = .okay →
        t.cmd = { s.cmd with waiting := rest, head := (s.cmd.head + 1) % 256 } ∧
        (let h := (s.cmd.head + 1) % 256
         t.own.requests =
           s.own.requests ++ ⟨.head, s.control + 0x808, leBytes 4 h⟩ ::
             (match rest with | [] => [] | n :: _ => [⟨.report, s.control + 0x1000 + h * 32, n.bytes⟩]))) ∧
      (resp ≠ .okay →
        t.cmd = { s.cmd with waiting := rest, reportFaults := min (s.cmd.reportFaults + 1) 4294967295 } ∧
        t.own.requests =
          s.own.requests ++ (match rest with | [] => [] | n :: _ => [⟨.report, s.control + 0x1000 + s.cmd.head * 32, n.bytes⟩]))) ∧
  ∀ (s : State) (before after : List (Nat × OwnKind)) (tag : Nat) (resp : Resp), s.own.issued = before ++ (tag, .head) :: after →
    (∀ e ∈ before ++ after, e.1 ≠ tag) →
    ∃ t, exec (.headWordResponse tag resp) s = .next t ∧ t.own = { s.own with issued := before ++ after } ∧
      KeepsAllBut [.cmd, .own] s t ∧ (resp = .okay → t.cmd = s.cmd) ∧
      (resp ≠ .okay → t.cmd = { s.cmd with reportFaults := min (s.cmd.reportFaults + 1) 4294967295 })

/-- Report records are 32 bytes laid out as Tables 10.6, 10.7 and 10.11 give (R161): for every kind its kind code, sub-code, bytes 2-3, the
uptime at production, each field of the payload at its place, and zeros; a hold reference is the 8 bytes of Table 10.9. -/
def Obligations.RecordsHaveTheirLayout : Prop :=
  (∀ w : Waiting, w.bytes.length = 32 ∧ Holds w.bytes 4 4 w.uptime ∧ LaidOut w.bytes w.report) ∧
  ∀ (r : HoldRef) (d : Disposition),
    (let b := refBytes (r, d)
     b.length = 8 ∧ Holds b 0 4 r.addr ∧ Holds b 4 2 r.length ∧
       Holds b 6 1 (r.slot.val + 16 * [Disposition.forward, .resend, .discard].idxOf d) ∧ Holds b 7 1 r.arrival)

/-- STATS and STATS_WRITE_RESPONSE (R25, R68, R81, R92, R106, R109, R129, R141, R157, R165): with a section in 0..18 and a clear flag of 0 or 1
the section's words are taken, the counts it carries cleared if asked, and the writes requested: 128 bytes each from the start of the block,
the last to the section's end. Sections 1, 2 and 3 to 18 are 952, 512 and 1024 bytes. Any other parameter completes REFUSED_RANGE. With the
flag set the counts of the section are cleared, the lost count among those of section 0, and none of the state it carries. Each response of
the section is awaited, an error marks it FAULT; at the last one STATS_WRITTEN is reported with the section, the bytes and OK or FAULT, and
the COMPLETION DONE follows. -/
def Obligations.StatsTakesASectionAndClearsItsCounts : Prop :=
  ((∀ (s : State) (p : List Byte) (clear : Bool), commanded s 0x20 p = true → (byteAt p 0).toNat ≤ 18 →
    (byteAt p 1).toNat = clear.toNat →
    ∃ t ws, exec .stats s = .next t ∧
      (let sec := (byteAt p 0).toNat
       let bs := wordBytes (sectionWords s sec)
       t.own = { s.own with requests := s.own.requests ++ ws } ∧ ws.flatMap OwnWrite.data = bs ∧
         ws.length = (bs.length + 127) / 128 ∧
         (∀ (k : Nat) (x : OwnWrite), ws[k]? = some x →
           x.kind = .stats ∧ x.addr = s.control + 0x4000 + 128 * k ∧ x.data = (bs.drop (128 * k)).take 128) ∧
         t.cmd.executing = .stats sec bs.length ws.length false ∧ t.cmd.queue = s.cmd.queue ∧
         (clear = false → KeepsAllBut [.own, .cmd, .free] s t ∧ t.cmd = { s.cmd with executing := t.cmd.executing }) ∧
         (clear = true → KeepsAllBut [.own, .cmd, .free, .capture, .cls, .adm, .rew, .sig, .hold, .img, .sta] s t))) ∧
  (∀ s : State, (wordBytes (sectionWords s 1)).length = 952 ∧ (wordBytes (sectionWords s 2)).length = 512 ∧
    ∀ n, 3 ≤ n → n ≤ 18 → (wordBytes (sectionWords s n)).length = 1024) ∧
  ∀ (s : State) (p : List Byte), commanded s 0x20 p = true → (18 < (byteAt p 0).toNat ∨ 1 < (byteAt p 1).toNat) →
    ∃ t, exec .stats s = .next t ∧ TurnedAway .refusedRange s t) ∧
  (∀ (s : State) (p : List Byte), commanded s 0x20 p = true → (byteAt p 1).toNat = 1 →
    ∃ t, exec .stats s = .next t ∧
      ((byteAt p 0).toNat = 0 →
        t.capture = { s.capture with captured := 0, replaced := 0, evicted := 0 } ∧ t.cls.rules = s.cls.rules ∧
        t.cls.flows = s.cls.flows ∧ (∀ k : Fin 32, t.cls.decisions[k] = 0) ∧ t.cls.defaultCount = 0 ∧ t.cls.learned = 0 ∧
        t.cls.evicted = 0 ∧ t.cls.aged = 0 ∧ t.cls.removed = 0 ∧ t.adm = { s.adm with demotions := 0 } ∧
        t.sig = { s.sig with samplesTaken := 0, samplesInvalid := 0, samplesLost := 0, peerTaken := 0, peerIgnored := 0, peerPartial := 0 } ∧
        t.hold = { s.hold with departed := 0, stayed := 0, timedOut := 0, cleared := 0, dumpFaults := 0 } ∧
        t.img = { s.img with refusedWrites := 0, refusedRecords := 0, outside := 0 } ∧
        t.cmd = { s.cmd with executing := t.cmd.executing, ignored := 0, tailIgnored := 0, reportFaults := 0, lost := 0 } ∧
        t.sta = s.sta ∧ t.rew = s.rew) ∧
      ((byteAt p 0).toNat = 1 →
        (∀ i : Fin 16, t.rew.counts[i] = ⟨0, 0, 0, 0, 0, 0, 0, 0, 0, 0⟩) ∧ t.rew.order = s.rew.order ∧
        (∀ i : Fin 16, t.adm.slots[i] = { s.adm.slots[i] with admitted := 0, spillAllowance := 0, spillCap := 0, withheld := 0 }) ∧
        t.adm = { s.adm with slots := t.adm.slots } ∧ t.cmd = { s.cmd with executing := t.cmd.executing } ∧
        KeepsAllBut [.own, .cmd, .free, .rew, .adm] s t) ∧
      ((byteAt p 0).toNat = 2 → t.cmd = { s.cmd with executing := t.cmd.executing } ∧ KeepsAllBut [.own, .cmd, .free] s t) ∧
      (3 ≤ (byteAt p 0).toNat → (byteAt p 0).toNat ≤ 18 →
        t.cmd = { s.cmd with executing := t.cmd.executing } ∧
        KeepsAllBut [.own, .cmd, .free, .sta] s t ∧ t.sta.unknown = s.sta.unknown ∧ t.sta.carry = s.sta.carry ∧
        ∀ i : Fin 128, t.sta.stations[i] =
          if 8 * ((byteAt p 0).toNat - 3) ≤ i.val ∧ i.val < 8 * ((byteAt p 0).toNat - 3) + 8 then
            s.sta.stations[i].map fun st => { st with forwarded := 0, discarded := 0, parked := 0, overflow := 0 }
          else s.sta.stations[i])) ∧
  ∀ (s : State) (before after : List (Nat × OwnKind)) (tag sec bytes awaited : Nat) (fault : Bool) (resp : Resp),
    s.own.issued = before ++ (tag, .stats) :: after → (∀ e ∈ before ++ after, e.1 ≠ tag) →
    s.cmd.executing = .stats sec bytes awaited fault →
    ∃ t, exec (.statsWriteResponse tag resp) s = .next t ∧
      (let fault' := fault || resp != .okay
       (2 ≤ awaited →
         t.own = { s.own with issued := before ++ after } ∧
           t.cmd = { s.cmd with executing := .stats sec bytes (awaited - 1) fault' } ∧ KeepsAllBut [.own, .cmd] s t) ∧
       (awaited = 1 →
         EndsWith [] [.statsWritten fault' sec bytes] .done [] { s with own := { s.own with issued := before ++ after } } t))

/-- The words of the statistics block (R165, Table 10.4): section 0 in the order of its rules (log 18), with polarity, clock and line level
coded as log 17 says, the activation window as five words (log 19) and no value stated for a staging bank or a sweep that is absent
(log 16); section 1, 17 words for each slot 2..15; section 2, 8 words for each handoff slot, 0 references for a DUMPING one (log 18);
sections 3 to 18, 32 words for each station, zeros for an empty one. These four log entries are the model's own. -/
def Obligations.StatisticsWordsStandInTheirOrder : Prop :=
  (∀ s : State, ∃ bank share yields offset : Word,
    sectionWords s 0 =
      words [s.capture.replaced, s.capture.evicted, s.capture.captured, s.capture.records.length,
        (match s.capture.records with | [] => 0 | r :: _ => r.uptime), s.sta.unknown.length, s.sta.carry.length,
        s.sched.clock.minute, s.sched.clock.second, if s.sched.clock.isSet = true then 0 else 1,
        (match s.sched.commit with | none => 0 | some m => m.toNat), [LineMode.off, .pause, .sync].idxOf s.sched.line.mode,
        if s.sched.line.assertedHigh = true then 0 else 1, if s.sched.line.follow = true then 1 else 0,
        if s.sched.line.level = s.sched.line.assertedHigh then 0 else 1] ++
      words s.cls.decisions.toList ++
      words [s.cls.defaultCount, s.cls.learned, s.cls.evicted, s.cls.aged, s.cls.removed, s.cls.flows.toList.countP Option.isSome,
        s.cls.flows.toList.countP fun o => o.any Flow.pinned,
        s.adm.demotions, s.adm.params.period, s.adm.params.threshold, s.adm.params.idleTimeout, s.adm.staged.period,
        s.adm.staged.threshold, s.adm.staged.idleTimeout, if s.adm.pending = true then 1 else 0, if s.adm.activity = true then 1 else 0,
        s.sig.samplesTaken, s.sig.samplesInvalid, s.sig.samplesLost, s.sig.peerTaken, s.sig.peerIgnored, s.sig.peerPartial, s.sig.node,
        s.hold.departed, s.hold.stayed, s.hold.timedOut, s.hold.cleared, s.hold.dumpFaults, s.hold.free,
        bankCode s.img.bank, s.img.trial] ++
      (match s.img.record with
       | none => List.replicate 8 absentWord
       | some bs => (List.range 8).map fun k => BitVec.ofNat 32 (leNat (slice bs (4 * k) 4))) ++
      [BitVec.ofNat 32 (stagingCode s.img.staging.state), bank, BitVec.ofNat 32 s.img.staging.length, s.img.staging.version,
        BitVec.ofNat 32 s.img.staging.chunkCount,
        BitVec.ofNat 32 ((s.img.staging.chunks.toList.take s.img.staging.chunkCount).countP fun k => k.state == .complete),
        BitVec.ofNat 32 ((s.img.staging.chunks.toList.take s.img.staging.chunkCount).countP fun k => k.state == .disordered),
        share, yields, offset] ++
      words [if s.img.window.enabled = true then 1 else 0, s.img.window.days.toNat, s.img.window.start, s.img.window.stop,
        s.img.window.quiet, if s.img.dueSent = true then 1 else 0, s.img.refusedWrites, s.img.refusedRecords, s.img.outside,
        s.cmd.ignored, s.cmd.tailIgnored, s.cmd.reportFaults, s.cmd.lost, s.cmd.head, s.cmd.tail,
        s.sta.stations.toList.countP Option.isSome] ∧
    (∀ k, s.img.staging.bank = some k → bank = BitVec.ofNat 32 (bankCode k)) ∧
    ∀ v, s.img.staging.sweep = some v →
      share = BitVec.ofNat 32 v.share ∧ yields = (if v.yields = true then 1 else 0) ∧ offset = BitVec.ofNat 32 v.offset) ∧
  (∀ (s : State) (k : Fin 16), 2 ≤ k.val →
    ((sectionWords s 1).drop (17 * (k.val - 2))).take 17 =
      (let c := s.rew.counts[k]
       let a := s.adm.slots[k]
       words [c.forwarded, c.discarded, c.parked, c.uncaptured, c.unresolved, c.partials, c.statusTaken, c.statusDropped, c.statusUnknown,
         c.statusPartial, a.admitted, a.spillAllowance, a.spillCap, a.withheld, a.cap, a.stagedCap,
         if a.capPending = true then 1 else 0])) ∧
  (∀ (s : State) (k : Fin 16), ((sectionWords s 2).drop (8 * k.val)).take 8 =
    match s.hold.slots[k] with
    | .free => words [0, 0, 0, 0, 0, 0, 0, 0]
    | .occupied o => words [1, o.station.val, o.tag.toNat, o.start, o.requests, o.list.length, 0, 0]
    | .dumping d => words [2, d.station.val, d.tag.toNat, d.start, d.requests, 0, 0, 0]) ∧
  ∀ (s : State) (i : Fin 128), ((sectionWords s (3 + i.val / 8)).drop (32 * (i.val % 8))).take 32 =
    match s.sta.stations[i] with
    | none => List.replicate 32 0
    | some st => stationEntry s.time.secs (s.sig.profiles[st.roam]).peerMaxAge i st

/-- SWEEP_START and SWEEP_READ_RETURN (R144, R150, R151, R152, R153): the sweep requests its first read when the staging writes received
before it have been answered; each read's bytes enter the CRC, of the last read only those below the length; the sweep ends VERIFIED on
the expected CRC, the due-sent flag cleared, CORRUPT on another one or on a read error, W becoming 0; and the data of a read of an ended
sweep is discarded. The read offset reported, the length rounded up to 128 or that of the failing read, and the CRC at a read error are DEDUCED
(log 22). The first read is requested whether or not a read of an ended sweep has returned: the model's choice (log 32). -/
def Obligations.SweepVerifiesExactlyTheLength : Prop :=
  (∀ (s : State) (v : Sweep), s.img.staging.sweep = some v → v.step = .awaiting →
    (∀ w ∈ s.path.writes, w.tag ∈ v.writes → w.stage ≠ .ready ∧ w.stage ≠ .issued) →
    ∃ t, exec .sweepStart s = .next t ∧ t.img.staging = { s.img.staging with sweep := some { v with step := .waiting } } ∧
      { t.img with staging := s.img.staging } = s.img ∧ KeepsAllBut [.img] s t) ∧
  (∀ (s : State) (tag : Nat) (resps : List Resp) (data : List Byte), tag ∈ s.img.staging.stale →
    ∃ t, exec (.sweepReadReturn tag resps data) s = .next t ∧ tag ∉ t.img.staging.stale ∧
      { t.img with staging := { t.img.staging with stale := s.img.staging.stale } } = s.img ∧ KeepsAllBut [.img] s t) ∧
  ∀ (s : State) (tag : Nat) (resps : List Resp) (data : List Byte) (v : Sweep), tag ∉ s.img.staging.stale →
    s.img.staging.sweep = some v → v.step = .reading tag → data.length = 128 →
    ∃ t, exec (.sweepReadReturn tag resps data) s = .next t ∧
      (let g := s.img.staging
       let crc := (data.take (g.length - v.offset)).foldl crcByte v.crc
       let reported (result : VerifyResult) (c : Word) (off : Nat) :=
         Reports [.path, .img] [.verifyResult result c g.expectedCrc g.version off 0] s t ∧ t.path = { s.path with sweepWait := 0 } ∧
           t.img.staging.sweep = none
       ((∀ r ∈ resps, r = Resp.okay) → v.offset + 128 < g.length →
         t.img.staging = { g with sweep := some { v with crc := crc, offset := v.offset + 128, step := .waiting } } ∧
           KeepsAllBut [.img] s t) ∧
       ((∀ r ∈ resps, r = Resp.okay) → g.length ≤ v.offset + 128 → ~~~crc = g.expectedCrc →
         reported .verified (~~~crc) (v.offset + 128) ∧ t.img.staging.state = .verified ∧ t.img.dueSent = false) ∧
       ((∀ r ∈ resps, r = Resp.okay) → g.length ≤ v.offset + 128 → ~~~crc ≠ g.expectedCrc →
         reported .mismatch (~~~crc) (v.offset + 128) ∧ t.img.staging.state = .corrupt ∧ t.img.dueSent = s.img.dueSent) ∧
       ((∃ r ∈ resps, r ≠ Resp.okay) →
         reported .readError (~~~v.crc) v.offset ∧ t.img.staging.state = .corrupt ∧ t.img.dueSent = s.img.dueSent))


/-- TICK, UPTIME_SECOND and FLOW_AGING (R39, R40, R41, R61, R76, R82): a tick advances the prescalers, the second, the period count and the
run count of the line filter; while RST_N is asserted only the clock of week. The second that the uptime prescaler raises increases uptime,
which wraps after 2^32 - 1, makes the visit of the stations due when one of them has a deadline that the new uptime exceeds (R125), and
removes every unpinned flow whose idle time has reached the timeout. A tick waits for the events of the tick before it: the model's choice
(log 4). -/
def Obligations.TickAdvancesTheCounts : Prop :=
  (∀ (s : State) (lineIn : Bool), s.pins.por = false → s.time.secondDue = false → s.time.agingDue = false →
    s.sched.minuteDue = false → s.adm.boundaryDue = false → s.sched.line.run ≠ 32 → s.time.visitDue = false →
    ∃ t, exec (.tick lineIn) s = .next t ∧
      (let c := s.sched.clock
       (c.presc < 1023 → t.sched = { s.sched with clock := { c with presc := c.presc + 1 }, line := t.sched.line }) ∧
       (1023 ≤ c.presc → c.second < 59 →
         t.sched = { s.sched with clock := { c with presc := 0, second := c.second + 1 }, line := t.sched.line }) ∧
       (1023 ≤ c.presc → 59 ≤ c.second →
         t.sched = { s.sched with clock := { c with presc := 0 }, minuteDue := true, line := t.sched.line })) ∧
      (s.pins.rst = true → KeepsAllBut [.sched] s t ∧ t.sched.line = s.sched.line) ∧
      (s.pins.rst = false →
        KeepsAllBut [.sched, .time, .adm] s t ∧
        (s.time.presc < 1023 → t.time = { s.time with presc := s.time.presc + 1 }) ∧
        (1023 ≤ s.time.presc → t.time = { s.time with presc := 0, secondDue := true }) ∧
        (s.adm.ticks + 1 < s.adm.params.period → t.adm = { s.adm with ticks := s.adm.ticks + 1 }) ∧
        (s.adm.params.period ≤ s.adm.ticks + 1 → t.adm = { s.adm with ticks := 0, boundaryDue := true }) ∧
        (lineIn = s.sched.line.level → t.sched.line = { s.sched.line with run := 0 }) ∧
        (lineIn ≠ s.sched.line.level → t.sched.line = { s.sched.line with run := s.sched.line.run + 1 }))) ∧
  (∀ s : State, s.time.secondDue = true →
    ∃ t, exec .uptimeSecond s = .next t ∧
      t.time = { s.time with secs := t.time.secs, secondDue := false, agingDue := true, visitDue := t.time.visitDue } ∧
      t.time.secs = (s.time.secs + 1) % 4294967296 ∧
      (t.time.visitDue = true ↔ ∃ (i : Fin 128) (st : Station), s.sta.stations[i] = some st ∧
        (st.state = .candidate ∨ st.state = .holdoff ∨ st.state = .handoff) ∧ st.deadline < t.time.secs) ∧
      KeepsAllBut [.time] s t) ∧
  (∀ s : State, s.time.agingDue = true →
    ∃ t, exec .flowAging s = .next t ∧ t.time = { s.time with agingDue := false } ∧ KeepsAllBut [.time, .cls] s t ∧
      (let idle (e : Flow) : Bool := !e.pinned && decide (s.adm.params.idleTimeout ≤ s.time.secs - e.lastSeen)
       (∀ (n : Fin 256) (e : Flow), s.cls.flows[n] = some e → t.cls.flows[n] = if idle e = true then none else some e) ∧
         (∀ n : Fin 256, s.cls.flows[n] = none → t.cls.flows[n] = none) ∧
         t.cls = { s.cls with
           flows := t.cls.flows,
           aged := min (s.cls.aged + s.cls.flows.toList.countP fun o => o.any idle) 4294967295 })) ∧
  ∀ (s : State) (lineIn : Bool), (s.time.secondDue = true ∨ s.time.agingDue = true ∨ s.sched.minuteDue = true ∨
    s.adm.boundaryDue = true ∨ s.sched.line.run = 32 ∨ s.time.visitDue = true) → exec (.tick lineIn) s = .next s

/-- CANDIDATE_EXPIRED, HOLDOFF_EXPIRY and HANDOFF_TIMEOUT (R125, R128, R134, R135, R136, R137): the visit of an uptime second is taken whole, every
station in ascending index. A CANDIDATE whose deadline uptime exceeds goes to WATCH and is reported, a station in HOLDOFF goes to SETTLED,
a HANDOFF is released TIMED_OUT, its dump writes requested together (log 25), and no other station is moved. Each of the three events that
has its transition to make takes the visit, and while it is due samples and commands wait: the model's choice (log 5). With no visit due, or no
such transition, an event has no occasion: the model's choice (log 1). Deadlines are in 32 bits (log 21). -/
def Obligations.UptimeVisitIsTakenWhole : Prop :=
  (∀ (s : State) (e : Instr) (state : Roam),
    (e = .candidateExpired ∧ state = .candidate ∨ e = .holdoffExpiry ∧ state = .holdoff ∨ e = .handoffTimeout ∧ state = .handoff) →
    (let moves := ∃ (i : Fin 128) (st : Station), s.sta.stations[i] = some st ∧ st.state = state ∧ st.deadline < s.time.secs
     (s.time.visitDue = true → moves →
       (let u := (List.finRange 128).foldl (fun s i => visitStation i s) s
        exec e s = .next { u with time := { u.time with visitDue := false } })) ∧
     (s.time.visitDue = false ∨ ¬moves → exec e s = .next s))) ∧
  (∀ (s : State) (i : Fin 128),
    (s.sta.stations[i] = none → visitStation i s = s) ∧
    ∀ st : Station, s.sta.stations[i] = some st →
      (let t := visitStation i s
       let due := st.deadline < s.time.secs
       (¬due ∨ st.state = .settled ∨ st.state = .watch → t = s) ∧
       (st.state = .candidate → due →
         t.sta.stations[i] = some { st with state := .watch, dwell := 0, deadline := 0 } ∧ OthersKept i s t ∧
           t.sta.unknown = s.sta.unknown ∧ t.sta.carry = s.sta.carry ∧ Reports [.sta] [.candidateExpired i st.mac st.est] s t) ∧
       (st.state = .holdoff → due →
         t.sta.stations[i] = some { st with state := .settled, dwell := 0, deadline := 0 } ∧ OthersKept i s t ∧
           t.sta.unknown = s.sta.unknown ∧ t.sta.carry = s.sta.carry ∧ KeepsAllBut [.sta] s t) ∧
       ∀ (k : Fin 16) (o : Occupied), st.state = .handoff → due → st.slot = some k → s.hold.slots[k] = .occupied o →
         (∀ j, s.cmd.executing ≠ .clearing k j) → s.cmd.executing ≠ .ending k →
         Released .timedOut i st k o s t ∧
           (o.list ≠ [] → Dumps .timedOut st k o s t ∧ KeepsAllBut [.sta, .hold, .own] s t) ∧
           (o.list = [] → t.hold.slots[k] = .free ∧ Reports [.sta, .hold] [emptyRelease .timedOut st k o] s t))) ∧
  ∀ s : State, s.time.visitDue = true →
    (∀ i : Nat, exec (.signalSample i) s = .next s) ∧ ∀ e ∈ commandTable, exec e.2 s = .next s

/-- HANDOFF_END and DUMP_WRITE_RESPONSE (R133, R135 to R138): for a station in HANDOFF the release is taken with the command's outcome; with
references the command waits for its dump, and without it ends DONE after HOLD_RELEASE. A parameter out of range and a station not in
HANDOFF are refused. Each response of a dump is awaited, an error marks it FAULT and is counted; at the last one HOLD_RELEASE is
produced, the slot becomes FREE, and the HANDOFF_END that took the release completes DONE, the STATION_CLEAR that did stands before its
second step (log 24). Both dump writes are requested together (log 25), and the deadline is in 32 bits (log 21): the
model's choices. -/
def Obligations.HandoffEndsWithItsHoldRelease : Prop :=
  (∀ (s : State) (p : List Byte), commanded s 0x1B p = true →
    (128 ≤ param1 p 0 ∨ 2 ≤ param1 p 1 → ∃ t, exec .handoffEnd s = .next t ∧ TurnedAway .refusedRange s t) ∧
    ∀ i : Fin 128, param1 p 0 = i.val → param1 p 1 ≤ 1 →
      ((s.sta.stations[i] = none ∨ ∃ st, s.sta.stations[i] = some st ∧ st.state ≠ .handoff) →
        ∃ t, exec .handoffEnd s = .next t ∧ TurnedAway .refusedState s t) ∧
      ∀ (st : Station) (k : Fin 16) (o : Occupied) (outcome : HandoffOutcome), s.sta.stations[i] = some st → st.state = .handoff →
        st.slot = some k → s.hold.slots[k] = .occupied o →
        (param1 p 1 = 0 ∧ outcome = .departed ∨ param1 p 1 = 1 ∧ outcome = .stayed) →
        ∃ t, exec .handoffEnd s = .next t ∧ Released outcome i st k o s t ∧
          (o.list ≠ [] →
            Dumps outcome st k o s t ∧ t.cmd = { s.cmd with executing := .ending k } ∧ KeepsAllBut [.sta, .hold, .own, .cmd] s t) ∧
          (o.list = [] → t.hold.slots[k] = .free ∧ EndsWith [.sta, .hold] [emptyRelease outcome st k o] .done [] s t)) ∧
  (∀ (s : State) (before after : List (Nat × OwnKind)) (tag : Nat) (k : Fin 16) (d : Dumping) (resp : Resp),
    s.own.issued = before ++ (tag, .dump k) :: after → (∀ e ∈ before ++ after, e.1 ≠ tag) → s.hold.slots[k] = .dumping d →
    ∃ t, exec (.dumpWriteResponse tag resp) s = .next t ∧ OtherEntries k s.hold.slots t.hold.slots ∧
      (let fault := d.fault || decide (resp ≠ .okay)
       let u : State := { s with own := { s.own with issued := before ++ after } }
       let released : Report :=
         .holdRelease d.outcome d.station d.tag d.buffer.length d.overflow k fault d.start d.requests
       t.hold = { s.hold with
         slots := t.hold.slots,
         dumpFaults := if resp = .okay then s.hold.dumpFaults else min (s.hold.dumpFaults + 1) 4294967295 } ∧
       (2 ≤ d.awaited →
         t.hold.slots[k] = .dumping { d with awaited := d.awaited - 1, fault := fault } ∧ t.own = u.own ∧ KeepsAllBut [.hold, .own] s t) ∧
       (d.awaited ≤ 1 →
         t.hold.slots[k] = .free ∧
         (s.cmd.executing = .ending k → EndsWith [.hold] [released] .done [] u t) ∧
         (∀ i, s.cmd.executing = .clearing k i →
           t.cmd = { (offer released u).cmd with executing := .removing i } ∧ t.own = (offer released u).own ∧
             KeepsAllBut [.hold, .cmd, .own] s t) ∧
         (s.cmd.executing ≠ .ending k → (∀ i, s.cmd.executing ≠ .clearing k i) → Reports [.hold] [released] u t))))

/-- MINUTE_BOUNDARY (R40, R41, R49, R51 to R56): the clock reaches the next minute and the eight steps are taken: minutes counted,
ALLOWANCE set at the limit, ALLOWANCE_LOW at 5 remaining minutes, the day rollover, the pending commit with its re-test, the window
evaluation, the activation check, and the gate changes, with the reports in the order of the steps. While RST_N is asserted only the clock
advances, and a day rollover empties the carry list. -/
def Obligations.MinuteBoundaryTakesItsSteps : Prop :=
  (∀ s : State, s.sched.minuteDue = true → s.pins.rst = true →
    ∃ t, exec .minuteBoundary s = .next t ∧ KeepsAllBut [.sched, .sta] s t ∧
      (let m := (s.sched.clock.minute + 1) % 10080
       t.sched = { s.sched with clock := { s.sched.clock with minute := m, second := 0 }, minuteDue := false } ∧
       t.sta = { s.sta with carry := if m % 1440 = 0 then [] else s.sta.carry })) ∧
  ∀ s : State, s.sched.minuteDue = true → s.pins.rst = false → s.pins.por = false →
    ∃ t lows, exec .minuteBoundary s = .next t ∧
      (let m := (s.sched.clock.minute + 1) % 10080
       let clock : Clock := { s.sched.clock with minute := m, second := 0 }
       let newDay := m % 1440 = 0
       let due (k : Fin 16) : Prop := ∃ mask, s.sched.commit = some mask ∧ mask.getLsbD k.val = true
       t.sched = { s.sched with clock := clock, minuteDue := false, active := t.sched.active, commit := none } ∧
       (∀ k : Fin 16, (due k → t.sched.active[k] = s.sched.shadow[k]) ∧ (¬due k → t.sched.active[k] = s.sched.active[k])) ∧
       t.sta.unknown = s.sta.unknown ∧ t.sta.carry = (if newDay then [] else s.sta.carry) ∧
       (∀ i : Fin 128, s.sta.stations[i] = none → t.sta.stations[i] = none) ∧
       lows = ((List.finRange 128).filterMap fun i =>
         match s.sta.stations[i] with
         | none => none
         | some st =>
           let a := dayAllowance s.sched.active st.sched
           let used := if clock.isSet && decide (0 < a) && st.active && !st.free then min (st.used + 1) 1440 else st.used
           let limit := min (a + st.extra) 1440
           if clock.isSet && decide (0 < a) && decide (5 < limit) && decide (limit - used = 5) && !st.lowSent then
             some (Report.allowanceLow i used st.extra limit 5)
           else none) ∧
       (∀ (i : Fin 128) (st : Station), s.sta.stations[i] = some st →
         ∃ u, t.sta.stations[i] = some u ∧ WindowEvaluated clock t.sched.active u ∧
           u = { st with
             used := u.used, extra := u.extra, active := false, lowSent := u.lowSent, noUrgent := u.noUrgent, free := u.free,
             reasons := ⟨u.reasons.window, u.reasons.allowance, st.reasons.line, st.reasons.host⟩ } ∧
           (let a := dayAllowance s.sched.active st.sched
            let used := if clock.isSet && decide (0 < a) && st.active && !st.free then min (st.used + 1) 1440 else st.used
            let limit := min (a + st.extra) 1440
            let reached := st.reasons.allowance || (clock.isSet && decide (0 < a) && decide (limit ≤ used))
            let warned := st.lowSent || (clock.isSet && decide (0 < a) && decide (5 < limit) && decide (limit - used = 5))
            let a' := dayAllowance t.sched.active st.sched
            let limit' := min (a' + u.extra) 1440
            (newDay → u.used = 0 ∧ u.extra = 0) ∧ (¬newDay → u.used = used ∧ u.extra = st.extra) ∧
            (∀ k, st.sched = some k → due k →
              (u.reasons.allowance = true ↔ 0 < a' ∧ limit' ≤ u.used) ∧
              (u.lowSent = true ↔ ¬newDay ∧ warned = true ∧ 0 < a' ∧ limit' - u.used ≤ 5)) ∧
            ((∀ k, st.sched = some k → ¬due k) → newDay → u.reasons.allowance = false ∧ u.lowSent = false) ∧
            ((∀ k, st.sched = some k → ¬due k) → ¬newDay → u.reasons.allowance = reached ∧ u.lowSent = warned))) ∧
       (let applied : List Report := match s.sched.commit with | none => [] | some mask => [.commitApplied mask]
        let g := s.img.staging
        let ready : Prop :=
          s.img.window.enabled = true ∧ clock.isSet = true ∧ s.img.window.days.getLsbD (m / 1440) = true ∧
            s.img.window.start ≤ m % 1440 ∧ m % 1440 < s.img.window.stop ∧ g.state = .verified ∧ s.img.dueSent = false ∧
            ∀ (i : Fin 128) (st : Station), s.sta.stations[i] = some st → st.state ≠ .candidate ∧ st.state ≠ .handoff ∧
              ∀ u, st.lastUrgent = some u → s.img.window.quiet < s.time.secs - u
        (∀ bank, g.bank = some bank → ready → t.img = { s.img with dueSent := true } ∧
          Reports [.sched, .sta, .img]
            (lows ++ applied ++ [.activationDue bank g.version m s.time.secs] ++ gateReports .boundary s.sta.stations t.sta.stations)
            s t) ∧
        (¬ready → Reports [.sched, .sta] (lows ++ applied ++ gateReports .boundary s.sta.stations t.sta.stations) s t)))

/-- TIME_SET (R42, R47, R48, R49, R54): a valid time is set with the prescaler at 0 and the clock SET; every activity flag is cleared; a
clock that was UNSET or a new day starts the usage from zero; the windows are evaluated and the gate changes reported before the
COMPLETION. An invalid time changes nothing. -/
def Obligations.TimeSetStartsADayOnlyAcrossDays : Prop :=
  ∀ (s : State) (p : List Byte), commanded s 0x0F p = true →
    (10079 < param2 p 0 ∨ 59 < param1 p 2 → ∃ t, exec .timeSet s = .next t ∧ TurnedAway .refusedRange s t) ∧
    (param2 p 0 ≤ 10079 → param1 p 2 ≤ 59 →
      ∃ t, exec .timeSet s = .next t ∧
        (let clock : Clock := ⟨param2 p 0, param1 p 2, 0, true⟩
         let newDay := s.sched.clock.isSet = false ∨ s.sched.clock.minute / 1440 ≠ param2 p 0 / 1440
         EndsWith [.sched, .sta] (gateReports .timeSet s.sta.stations t.sta.stations) .done [] s t ∧
         t.sched = { s.sched with clock := clock, minuteDue := false } ∧ t.sta.unknown = s.sta.unknown ∧
         (newDay → t.sta.carry = []) ∧ (¬newDay → t.sta.carry = s.sta.carry) ∧
         (∀ i : Fin 128, s.sta.stations[i] = none → t.sta.stations[i] = none) ∧
         ∀ (i : Fin 128) (st : Station), s.sta.stations[i] = some st →
           ∃ u, t.sta.stations[i] = some u ∧ WindowEvaluated clock s.sched.active u ∧
             u = { st with
               used := u.used, extra := u.extra, active := false, lowSent := u.lowSent, noUrgent := u.noUrgent, free := u.free,
               reasons := ⟨u.reasons.window, u.reasons.allowance, st.reasons.line, st.reasons.host⟩ } ∧
             (newDay → u.used = 0 ∧ u.extra = 0 ∧ u.reasons.allowance = false ∧ u.lowSent = false) ∧
             (¬newDay →
               u.used = st.used ∧ u.extra = st.extra ∧ u.reasons.allowance = st.reasons.allowance ∧ u.lowSent = st.lowSent)))

/-- LINE_EDGE and LINE_SET (R60, R61, R62, R63): at a run of 32 the filtered level takes the sampled one. In PAUSE an asserting edge sets
LINE on every station whose active profile has its LINE trigger enabled, a releasing edge with follow set clears it, and either is
reported with the number of stations changed and the gate changes. In SYNC an asserting edge restarts the second, back to 0 below 30 and
forward over a minute boundary from 30 on. LINE_SET replaces mode, polarity and follow flag only; its codes for the polarity, asserted is
high 0 and low 1, are DEDUCED (log 17). -/
def Obligations.LineEdgesActUnderTheMode : Prop :=
  (∀ s : State, s.sched.line.run = 32 →
    (let line : Line := { s.sched.line with level := !s.sched.line.level, run := 0 }
     let asserting := line.level = line.assertedHigh
     let c := s.sched.clock
     let affected (st : Station) : Bool := match st.sched with | none => false | some k => s.sched.active[k].lineTrigger
     let pauses (v : Bool) (t : State) : Prop :=
       t.sched = { s.sched with line := line } ∧
       Reports [.sched, .sta]
         (.lineEvent (if v then .asserted else .released)
             (s.sta.stations.toList.countP fun o => o.any fun st => affected st && st.reasons.line != v) ::
           gateReports .line s.sta.stations t.sta.stations) s t ∧
       t.sta.unknown = s.sta.unknown ∧ t.sta.carry = s.sta.carry ∧
       (∀ i : Fin 128, s.sta.stations[i] = none → t.sta.stations[i] = none) ∧
       ∀ (i : Fin 128) (st : Station), s.sta.stations[i] = some st →
         t.sta.stations[i] = some (if affected st = true then { st with reasons := { st.reasons with line := v } } else st)
     ∃ t, exec .lineEdge s = .next t ∧
       (line.mode = .off ∨ line.mode = .sync ∧ ¬asserting → t.sched = { s.sched with line := line } ∧ KeepsAllBut [.sched] s t) ∧
       (line.mode = .pause → asserting → pauses true t) ∧
       (line.mode = .pause → ¬asserting → line.follow = true → pauses false t) ∧
       (line.mode = .pause → ¬asserting → line.follow = false →
         t.sched = { s.sched with line := line } ∧ Reports [.sched] [.lineEvent .released 0] s t) ∧
       (line.mode = .sync → asserting → c.second < 30 →
         t.sched = { s.sched with line := line, clock := { c with second := 0, presc := 0 } } ∧
         Reports [.sched] [.lineEvent .syncBack c.second] s t) ∧
       (line.mode = .sync → asserting → 30 ≤ c.second → s.pins.por = false → s.pins.rst = false →
         exec .minuteBoundary
             { offer (.lineEvent .syncForward c.second) s with
               sched := { s.sched with line := line, clock := { c with presc := 0 }, minuteDue := true } } = .next t))) ∧
  ∀ (s : State) (p : List Byte), commanded s 0x16 p = true →
    ∃ t, exec .lineSet s = .next t ∧
      (3 ≤ param1 p 0 ∨ 2 ≤ param1 p 1 ∨ 2 ≤ param1 p 2 → TurnedAway .refusedRange s t) ∧
      ∀ (mode : LineMode) (high follow : Bool),
        (param1 p 0 = 0 ∧ mode = .off ∨ param1 p 0 = 1 ∧ mode = .pause ∨ param1 p 0 = 2 ∧ mode = .sync) →
        (param1 p 1 = 0 ∧ high = true ∨ param1 p 1 = 1 ∧ high = false) →
        (param1 p 2 = 0 ∧ follow = false ∨ param1 p 2 = 1 ∧ follow = true) →
        t.sched = { s.sched with line := { s.sched.line with mode := mode, assertedHigh := high, follow := follow } } ∧
          EndsWith [.sched] [] .done [] s t

/-- PACING_PERIOD_BOUNDARY, PACING_SET and CAP_SET (R83, R84, R91, R93, R94, R95): staged parameters and caps come into force and are
reported, over counts advance and flows at the threshold in force are demoted and reported in ascending index, the counters of the period
are cleared, and the activity flag is carried. The two commands stage their values ACCEPTED, and are refused while a request of the same
kind is pending, or out of range. Staged values keep standing after they came into force, and DEMOTIONS, to which R92 gives no range,
saturates at 2^32 - 1: the model's choices (log 28, log 20). -/
def Obligations.PacingBoundaryAppliesAndDemotes : Prop :=
  (∀ s : State, s.adm.boundaryDue = true →
    ∃ t, exec .pacingPeriodBoundary s = .next t ∧
      (let params := if s.adm.pending = true then s.adm.staged else s.adm.params
       let overs (e : Flow) : Nat := if e.overFlag = true then min (e.overCount + 1) 15 else 0
       let demoted (e : Flow) : Bool := decide (e.cls = .urgent) && decide (params.threshold ≤ overs e)
       let demotions : List Report := (List.finRange 256).filterMap fun n =>
         match s.cls.flows[n] with
         | none => none
         | some e => if demoted e = true then some (.flowDemoted n e.station e.key e.allowance (overs e) e.count) else none
       let caps : List Report := (List.finRange 16).filterMap fun k =>
         if (s.adm.slots[k]).capPending = true then some (.capApplied k (s.adm.slots[k]).stagedCap) else none
       Reports [.adm, .cls] ((if s.adm.pending = true then [.pacingApplied s.adm.staged] else []) ++ caps ++ demotions) s t ∧
       t.adm = { s.adm with
         boundaryDue := false, params := params, pending := false, slots := t.adm.slots, activity := s.adm.admitted, admitted := false,
         demotions := min (s.adm.demotions + demotions.length) 4294967295 } ∧
       (∀ k : Fin 16, t.adm.slots[k] = { s.adm.slots[k] with
         cap := if (s.adm.slots[k]).capPending = true then (s.adm.slots[k]).stagedCap else (s.adm.slots[k]).cap,
         capPending := false, urgent := 0 }) ∧
       t.cls = { s.cls with flows := t.cls.flows } ∧
       (∀ n : Fin 256, s.cls.flows[n] = none → t.cls.flows[n] = none) ∧
       ∀ (n : Fin 256) (e : Flow), s.cls.flows[n] = some e →
         t.cls.flows[n] = some { e with
           periodBytes := 0, overFlag := false, overCount := if e.cls = .urgent then overs e else e.overCount,
           cls := if demoted e = true then .demoted else e.cls })) ∧
  (∀ (s : State) (p : List Byte), commanded s 0x0D p = true →
    ∃ t, exec .pacingSet s = .next t ∧
      (let valid := 1 ≤ param1 p 0 ∧ 1 ≤ param1 p 1 ∧ param1 p 1 ≤ 15 ∧ 1 ≤ param1 p 2
       (¬valid → TurnedAway .refusedRange s t) ∧ (valid → s.adm.pending = true → TurnedAway .refusedPending s t) ∧
       (valid → s.adm.pending = false →
         t.adm = { s.adm with staged := ⟨param1 p 0, param1 p 1, param1 p 2⟩, pending := true } ∧ EndsWith [.adm] [] .accepted [] s t))) ∧
  ∀ (s : State) (p : List Byte), commanded s 0x0E p = true →
    (param1 p 0 < 2 ∨ 16 ≤ param1 p 0 → ∃ t, exec .capSet s = .next t ∧ TurnedAway .refusedRange s t) ∧
    ∀ k : Fin 16, param1 p 0 = k.val → 2 ≤ k.val →
      ∃ t, exec .capSet s = .next t ∧
        ((s.win.slots[k]).kind ≠ .txRing → TurnedAway .refusedRange s t) ∧
        ((s.win.slots[k]).kind = .txRing → (s.adm.slots[k]).capPending = true → TurnedAway .refusedPending s t) ∧
        ((s.win.slots[k]).kind = .txRing → (s.adm.slots[k]).capPending = false →
          t.adm = { s.adm with slots := t.adm.slots } ∧ OtherEntries k s.adm.slots t.adm.slots ∧
            t.adm.slots[k] = { s.adm.slots[k] with stagedCap := param2 p 1, capPending := true } ∧ EndsWith [.adm] [] .accepted [] s t)

/-- R160: with no command in execution the oldest command is taken by its kind code, and completes REFUSED_UNKNOWN when its kind code
is outside 0x01..0x20 and REFUSED_RANGE when its flags byte is not 0; nothing else changes. The commands of Table 10.3 wait while a visit
of an uptime second is due, which a premise rules out: the model's choice (log 5). The event of a command that does not stand at the front, or
while another executes, has no occasion: the model's choice (log 1); STATION_CLEAR's own event takes its second and last steps while it
executes (log 24). -/
def Obligations.UnknownCodesAndFlagsAreRefused : Prop :=
  ∀ (s : State) (b : List Byte) (rest : List (List Byte)), s.cmd.queue = b :: rest →
    (s.cmd.executing = .idle →
      ((byteAt b 0).toNat = 0 ∨ 0x20 < (byteAt b 0).toNat →
        ∃ t, exec .unknownCommand s = .next t ∧ TurnedAway .refusedUnknown s t) ∧
      (s.time.visitDue = false → byteAt b 1 ≠ 0 → ∀ e ∈ commandTable, (byteAt b 0).toNat = e.1 →
        ∃ t, exec e.2 s = .next t ∧ TurnedAway .refusedRange s t)) ∧
    ((byteAt b 0).toNat ≠ 0 → (byteAt b 0).toNat ≤ 0x20 → exec .unknownCommand s = .next s) ∧
    (s.cmd.executing ≠ .idle → exec .unknownCommand s = .next s) ∧
    ∀ e ∈ commandTable, (s.cmd.executing ≠ .idle ∨ (byteAt b 0).toNat ≠ e.1) →
      (e.2 = .stationClear → ∀ i, s.cmd.executing ≠ .removing i ∧ s.cmd.executing ≠ .emptying i) → exec e.2 s = .next s

/-- WINDOW_SET, WINDOW_CLEAR, DESC_PROFILE_SET and STATUS_PROFILE_SET (R10 to R13): a record or profile that passes every check replaces
the old one whole, a window only when it shares no byte with another enabled slot; a refused command changes nothing. The codes of the
window kinds, counted from OFF as 0, and of the byte orders, little 0 and big 1, are DEDUCED (log 17). -/
def Obligations.WindowsAndProfilesAreReplacedWhole : Prop :=
  (∀ (s : State) (p : List Byte), commanded s 0x01 p = true →
    (param1 p 0 < 2 ∨ 16 ≤ param1 p 0 ∨ (¬∃ r, WindowAsked s.win p r) →
      ∃ t, exec .windowSet s = .next t ∧ TurnedAway .refusedRange s t) ∧
    ∀ (k : Fin 16) (r : WindowRec), param1 p 0 = k.val → 2 ≤ k.val → WindowAsked s.win p r →
      ∃ t, exec .windowSet s = .next t ∧
        (let overlaps := ∃ j : Fin 16, j ≠ k ∧ (s.win.slots[j]).kind ≠ .off ∧ r.base < (s.win.slots[j]).base + (s.win.slots[j]).size ∧
           (s.win.slots[j]).base < r.base + r.size
         (overlaps → TurnedAway .refusedOverlap s t) ∧
         (¬overlaps →
           t.win = { s.win with slots := t.win.slots } ∧ t.win.slots[k] = r ∧ OtherEntries k s.win.slots t.win.slots ∧
             EndsWith [.win] [] .done [] s t))) ∧
  (∀ (s : State) (p : List Byte), commanded s 0x02 p = true →
    (param1 p 0 < 2 ∨ 16 ≤ param1 p 0 → ∃ t, exec .windowClear s = .next t ∧ TurnedAway .refusedRange s t) ∧
    ∀ k : Fin 16, param1 p 0 = k.val → 2 ≤ k.val →
      ∃ t, exec .windowClear s = .next t ∧ t.win = { s.win with slots := t.win.slots } ∧
        t.win.slots[k] = ⟨.off, 0, 0, .little, 0, ⟨0, 0, 0, 0⟩, 0, 0⟩ ∧ OtherEntries k s.win.slots t.win.slots ∧
        EndsWith [.win] [] .done [] s t) ∧
  (∀ (s : State) (p : List Byte), commanded s 0x03 p = true →
    (4 ≤ param1 p 0 ∨ (¬∃ d, DescAsked p d) → ∃ t, exec .descProfileSet s = .next t ∧ TurnedAway .refusedRange s t) ∧
    ∀ (k : Fin 4) (d : DescProfile), param1 p 0 = k.val → DescAsked p d →
      ∃ t, exec .descProfileSet s = .next t ∧ t.win = { s.win with desc := t.win.desc } ∧ t.win.desc[k] = d ∧
        OtherEntries k s.win.desc t.win.desc ∧ EndsWith [.win] [] .done [] s t) ∧
  ∀ (s : State) (p : List Byte), commanded s 0x04 p = true →
    (4 ≤ param1 p 0 ∨ (¬∃ d, StatusAsked p d) → ∃ t, exec .statusProfileSet s = .next t ∧ TurnedAway .refusedRange s t) ∧
    ∀ (k : Fin 4) (d : StatusProfile), param1 p 0 = k.val → StatusAsked p d →
      ∃ t, exec .statusProfileSet s = .next t ∧ t.win = { s.win with status := t.win.status } ∧ t.win.status[k] = d ∧
        OtherEntries k s.win.status t.win.status ∧ EndsWith [.win] [] .done [] s t

/-- STATION_SET (R29, R30, R31, R35): the checks in their order; an installation restores a carry entry of the current day, evaluates the
gate, clears HOST, leaves every other field at its first value, and reports a CLOSED gate; an update replaces the two profiles and
evaluates the schedule part of the gate. -/
def Obligations.StationSetInstallsOrUpdates : Prop :=
  ∀ (s : State) (p : List Byte), commanded s 0x05 p = true →
    (let mac := macAt p 1
     (128 ≤ param1 p 0 ∨ (16 ≤ param1 p 7 ∧ param1 p 7 ≠ 255) ∨ 4 ≤ param1 p 8 ∨ isGroup mac = true ∨ mac = 0 →
       ∃ t, exec .stationSet s = .next t ∧ TurnedAway .refusedRange s t) ∧
     ∀ (i : Fin 128) (sched : Option (Fin 16)) (roam : Fin 4), param1 p 0 = i.val →
       (param1 p 7 = 255 ∧ sched = none ∨ ∃ k : Fin 16, param1 p 7 = k.val ∧ sched = some k) → param1 p 8 = roam.val →
       isGroup mac = false → mac ≠ 0 →
       ∃ t, exec .stationSet s = .next t ∧
         (let elsewhere := ∃ j x, j ≠ i ∧ s.sta.stations[j] = some x ∧ x.mac = mac
          (elsewhere → TurnedAway .refusedDuplicate s t) ∧
          (¬elsewhere → ∀ st, s.sta.stations[i] = some st → st.mac ≠ mac → TurnedAway .refusedState s t) ∧
          (¬elsewhere → s.sta.stations[i] = none →
            t.sta.unknown = s.sta.unknown.filter (fun m => m != mac) ∧ t.sta.carry = s.sta.carry.filter (fun e => e.mac != mac) ∧
            OthersKept i s t ∧
            ∃ u, t.sta.stations[i] = some u ∧ WindowEvaluated s.sched.clock s.sched.active u ∧
              u = { mac := mac, sched := sched, roam := roam, reasons := ⟨u.reasons.window, u.reasons.allowance, u.reasons.line, false⟩,
                    noUrgent := u.noUrgent, free := u.free, used := u.used, extra := u.extra, active := false, lowSent := false,
                    est := none, samples := 0, dwell := 0, peer := none, state := .settled, deadline := 0, away := false,
                    lastUrgent := none, slot := none, forwarded := 0, discarded := 0, parked := 0, overflow := 0 } ∧
              (∀ e, (s.sta.carry.find? fun e => e.mac == mac) = some e → e.day = s.sched.clock.minute / 1440 →
                u.used = e.used ∧ u.extra = e.extra) ∧
              ((∀ e, (s.sta.carry.find? fun e => e.mac == mac) = some e → e.day ≠ s.sched.clock.minute / 1440) →
                u.used = 0 ∧ u.extra = 0) ∧
              (let a := dayAllowance s.sched.active sched
               u.reasons.allowance = true ↔ 0 < a ∧ min (a + u.extra) 1440 ≤ u.used) ∧
              (u.reasons.line = true ↔
                s.sched.line.mode = .pause ∧ s.sched.line.level = s.sched.line.assertedHigh ∧
                  ∃ k, sched = some k ∧ (s.sched.active[k]).lineTrigger = true) ∧
              EndsWith [.sta] (if u.closed = true then [.gateChange .stationSet i true u.reasons] else []) .done [] s t) ∧
          (¬elsewhere → ∀ st, s.sta.stations[i] = some st → st.mac = mac →
            t.sta.unknown = s.sta.unknown ∧ t.sta.carry = s.sta.carry ∧ OthersKept i s t ∧
            ∃ u, t.sta.stations[i] = some u ∧ WindowEvaluated s.sched.clock s.sched.active u ∧
              u = { st with
                sched := sched, roam := roam, noUrgent := u.noUrgent, free := u.free,
                reasons := ⟨u.reasons.window, u.reasons.allowance, st.reasons.line, st.reasons.host⟩ } ∧
              (let a := dayAllowance s.sched.active sched
               u.reasons.allowance = true ↔ 0 < a ∧ min (a + st.extra) 1440 ≤ st.used) ∧
              EndsWith [.sta] (gateReports .stationSet s.sta.stations t.sta.stations) .done [] s t)))

/-- STATION_CLEAR (R32, R77, R134, R135): an empty record or an index out of range is refused. A station in HANDOFF is first released CLEARED,
and with references on its list the command waits for the dump, and without them HOLD_RELEASE is produced at once. The second step removes
the station's flows; the last one removes those learnt since and empties the record, and the command ends DONE. The second step after a
release, and the last step, are events of the command of their own, and wait while a visit is due, so that a descriptor may be decided
between any two steps (log 24, log 5); both dump writes are requested together (log 25): the model's choices. -/
def Obligations.StationClearRemovesFlowsFirst : Prop :=
  (∀ (s : State) (p : List Byte), commanded s 0x06 p = true →
    (128 ≤ param1 p 0 → ∃ t, exec .stationClear s = .next t ∧ TurnedAway .refusedRange s t) ∧
    ∀ i : Fin 128, param1 p 0 = i.val →
      (s.sta.stations[i] = none → ∃ t, exec .stationClear s = .next t ∧ TurnedAway .refusedState s t) ∧
      ∀ st, s.sta.stations[i] = some st →
        (st.state ≠ .handoff →
          ∃ t, exec .stationClear s = .next t ∧ t.cmd = { s.cmd with executing := .emptying i } ∧ FlowsOfRemoved i s t ∧
            KeepsAllBut [.cls, .cmd] s t) ∧
        ∀ (k : Fin 16) (o : Occupied), st.state = .handoff → st.slot = some k → s.hold.slots[k] = .occupied o →
          ∃ t, exec .stationClear s = .next t ∧ Released .cleared i st k o s t ∧
            (o.list ≠ [] →
              Dumps .cleared st k o s t ∧ t.cmd = { s.cmd with executing := .clearing k i } ∧ KeepsAllBut [.sta, .hold, .own, .cmd] s t) ∧
            (o.list = [] →
              t.hold.slots[k] = .free ∧ t.cmd = { (offer (emptyRelease .cleared st k o) s).cmd with executing := .removing i } ∧
                t.own = (offer (emptyRelease .cleared st k o) s).own ∧ KeepsAllBut [.sta, .hold, .own, .cmd] s t)) ∧
  (∀ (s : State) (i : Fin 128), s.cmd.executing = .removing i → s.time.visitDue = false →
    ∃ t, exec .stationClear s = .next t ∧ t.cmd = { s.cmd with executing := .emptying i } ∧ FlowsOfRemoved i s t ∧
      KeepsAllBut [.cls, .cmd] s t) ∧
  ∀ (s : State) (i : Fin 128) (b : List Byte) (rest : List (List Byte)), s.cmd.executing = .emptying i → s.cmd.queue = b :: rest →
    s.time.visitDue = false →
    ∃ t, exec .stationClear s = .next t ∧ EndsWith [.sta, .cls] [] .done [] s t ∧ t.sta.stations[i] = none ∧ OthersKept i s t ∧
      t.sta.unknown = s.sta.unknown ∧ t.sta.carry = s.sta.carry ∧ FlowsOfRemoved i s t

/-- RULE_SET, RULE_CLEAR, FLOW_UNPIN, FLOW_PROMOTE and FLOW_FLUSH (R66, R79, R80): a well-formed rule replaces the slot, whatever it held; a
slot is emptied whether or not it held a rule; no other slot changes, and the Flow Table is left as it is. The entry that holds a key
loses its pinned flag; a DEMOTED one becomes URGENT with over count 0; with no entry, or no DEMOTED one, these are refused. Every unpinned
entry is flushed and counted. The COMPLETION carries the entry or the count. -/
def Obligations.RuleAndFlowCommandsActOnOneEntry : Prop :=
  ((∀ (s : State) (p : List Byte), commanded s 0x07 p = true →
    (let asked (r : Rule) : Prop :=
       CondAsked p 1 r.c0 ∧ CondAsked p 5 r.c1 ∧ ClassAsked (param1 p 9) (param2 p 10) r.cls r.allowance
     (32 ≤ param1 p 0 ∨ (¬∃ r, asked r) → ∃ t, exec .ruleSet s = .next t ∧ TurnedAway .refusedRange s t) ∧
     ∀ (k : Fin 32) (r : Rule), param1 p 0 = k.val → asked r →
       ∃ t, exec .ruleSet s = .next t ∧ t.cls = { s.cls with rules := t.cls.rules } ∧ t.cls.rules[k] = some r ∧
         OtherEntries k s.cls.rules t.cls.rules ∧ EndsWith [.cls] [] .done [] s t)) ∧
  ∀ (s : State) (p : List Byte), commanded s 0x08 p = true →
    (32 ≤ param1 p 0 → ∃ t, exec .ruleClear s = .next t ∧ TurnedAway .refusedRange s t) ∧
    ∀ k : Fin 32, param1 p 0 = k.val →
      ∃ t, exec .ruleClear s = .next t ∧ t.cls = { s.cls with rules := t.cls.rules } ∧ t.cls.rules[k] = none ∧
        OtherEntries k s.cls.rules t.cls.rules ∧ EndsWith [.cls] [] .done [] s t) ∧
  ((∀ (s : State) (p : List Byte), commanded s 0x0A p = true →
    (KeyAbsent s (flowKeyAt p 0) → ∃ t, exec .flowUnpin s = .next t ∧ TurnedAway .refusedState s t) ∧
    ∀ i e, HoldsKey s i e (flowKeyAt p 0) →
      ∃ t, exec .flowUnpin s = .next t ∧ EndsWith [.cls] [] .done [BitVec.ofNat 8 i.val] s t ∧
        t.cls = { s.cls with flows := t.cls.flows } ∧ OtherEntries i s.cls.flows t.cls.flows ∧
        t.cls.flows[i] = some { e with pinned := false }) ∧
  (∀ (s : State) (p : List Byte), commanded s 0x0B p = true →
    (KeyAbsent s (flowKeyAt p 0) → ∃ t, exec .flowPromote s = .next t ∧ TurnedAway .refusedState s t) ∧
    ∀ i e, HoldsKey s i e (flowKeyAt p 0) →
      ∃ t, exec .flowPromote s = .next t ∧ (e.cls ≠ .demoted → TurnedAway .refusedState s t) ∧
        (e.cls = .demoted →
          EndsWith [.cls] [] .done [BitVec.ofNat 8 i.val] s t ∧ t.cls = { s.cls with flows := t.cls.flows } ∧
          OtherEntries i s.cls.flows t.cls.flows ∧ t.cls.flows[i] = some { e with cls := .urgent, overCount := 0 })) ∧
  ∀ (s : State) (p : List Byte), commanded s 0x0C p = true →
    ∃ t, exec .flowFlush s = .next t ∧
      (let n := s.cls.flows.toList.countP fun o => o.any fun e => !e.pinned
       EndsWith [.cls] [] .done (leBytes 2 n) s t ∧
       t.cls = { s.cls with flows := t.cls.flows, removed := min (s.cls.removed + n) 4294967295 } ∧
       (∀ k : Fin 256, s.cls.flows[k] = none → t.cls.flows[k] = none) ∧
       ∀ (k : Fin 256) (e : Flow), s.cls.flows[k] = some e → t.cls.flows[k] = if e.pinned = true then some e else none))

/-- FLOW_PIN (R75, R78): an entry that holds the key is overwritten and pinned; a new one is created pinned in the lowest free entry, or in
that of the oldest unpinned flow when none is free; neither may pin a 65th entry. The COMPLETION carries the entry. -/
def Obligations.FlowPinKeepsTheLimit : Prop :=
  ∀ (s : State) (p : List Byte), commanded s 0x09 p = true →
    (let key := flowKeyAt p 0
     let full := 64 ≤ pinnedCount s.cls.flows
     ((¬∃ cls a, ClassAsked (param1 p 13) (param2 p 14) cls a) → ∃ t, exec .flowPin s = .next t ∧ TurnedAway .refusedRange s t) ∧
     ∀ (cls : Machine.Class) (a : Nat), ClassAsked (param1 p 13) (param2 p 14) cls a →
       ((full ∧ (KeyAbsent s key ∨ ∃ i e, HoldsKey s i e key ∧ e.pinned = false)) →
         ∃ t, exec .flowPin s = .next t ∧ TurnedAway .refusedFull s t) ∧
       (∀ i e, HoldsKey s i e key → (e.pinned = true ∨ ¬full) →
         ∃ t, exec .flowPin s = .next t ∧ EndsWith [.cls] [] .done [BitVec.ofNat 8 i.val] s t ∧
           t.cls = { s.cls with flows := t.cls.flows } ∧ OtherEntries i s.cls.flows t.cls.flows ∧
           t.cls.flows[i] =
             some { e with cls := cls, allowance := a, overCount := 0, pinned := true, lastSeen := s.time.secs }) ∧
       ∀ i : Fin 256, KeyAbsent s key → ¬full →
         (let created (t : State) : Prop :=
            EndsWith [.cls] [] .done [BitVec.ofNat 8 i.val] s t ∧ OtherEntries i s.cls.flows t.cls.flows ∧
              t.cls.flows[i] = some ⟨key, none, cls, a, true, 0, false, 0, s.time.secs, 0⟩
          (s.cls.flows[i] = none → (∀ j : Fin 256, j < i → s.cls.flows[j] ≠ none) →
            ∃ t, exec .flowPin s = .next t ∧ created t ∧ t.cls = { s.cls with flows := t.cls.flows }) ∧
          ∀ e, s.cls.flows[i] = some e → e.pinned = false → (∀ j : Fin 256, s.cls.flows[j] ≠ none) →
            (∀ (j : Fin 256) (f : Flow), s.cls.flows[j] = some f → f.pinned = false →
              e.lastSeen < f.lastSeen ∨ e.lastSeen = f.lastSeen ∧ i ≤ j) →
            ∃ t, exec .flowPin s = .next t ∧ created t ∧
              t.cls = { s.cls with flows := t.cls.flows, evicted := min (s.cls.evicted + 1) 4294967295 }))


/-- SCHEDULE_STAGE, ALLOWANCE_STAGE and SCHEDULE_COMMIT (R43 to R46): staging writes one window, or the three other fields, of a shadow copy,
never an active one, and is refused for a profile in the pending mask; a commit becomes pending with its mask, ACCEPTED, and is refused
while another is pending. ALLOWANCE_STAGE's codes for the LINE trigger, enabled 0 and disabled 1, and for the policy, OPEN 0 and CLOSED 1, are
DEDUCED (log 17). -/
def Obligations.StagingWritesOnlyShadowCopies : Prop :=
  (∀ (s : State) (p : List Byte), commanded s 0x10 p = true →
    (let asked (w : SchedWindow) : Prop :=
       param1 p 2 < 128 ∧ w.days = BitVec.ofNat 7 (param1 p 2) ∧
         (param1 p 2 = 0 → w.start = 0 ∧ w.stop = 0 ∧ w.action = .block) ∧
         (param1 p 2 ≠ 0 →
           w.start = param2 p 3 ∧ w.start ≤ 1439 ∧ w.stop = param2 p 5 ∧ 1 ≤ w.stop ∧ w.stop ≤ 1440 ∧ w.start < w.stop ∧
             (param1 p 7 = 0 ∧ w.action = .block ∨ param1 p 7 = 1 ∧ w.action = .noUrgent ∨ param1 p 7 = 2 ∧ w.action = .free))
     (16 ≤ param1 p 0 ∨ 8 ≤ param1 p 1 ∨ (¬∃ w, asked w) → ∃ t, exec .scheduleStage s = .next t ∧ TurnedAway .refusedRange s t) ∧
     ∀ (k : Fin 16) (j : Fin 8) (w : SchedWindow), param1 p 0 = k.val → param1 p 1 = j.val → asked w →
       ∃ t, exec .scheduleStage s = .next t ∧
         ((∃ m, s.sched.commit = some m ∧ m.getLsbD k.val = true) → TurnedAway .refusedPending s t) ∧
         ((∀ m, s.sched.commit = some m → m.getLsbD k.val = false) →
           t.sched = { s.sched with shadow := t.sched.shadow } ∧ OtherEntries k s.sched.shadow t.sched.shadow ∧
             t.sched.shadow[k] = { s.sched.shadow[k] with windows := (t.sched.shadow[k]).windows } ∧
             (t.sched.shadow[k]).windows[j] = w ∧ OtherEntries j (s.sched.shadow[k]).windows (t.sched.shadow[k]).windows ∧
             EndsWith [.sched] [] .done [] s t))) ∧
  (∀ (s : State) (p : List Byte), commanded s 0x11 p = true →
    (16 ≤ param1 p 0 ∨ 1440 < param2 p 1 ∨ 2 ≤ param1 p 3 ∨ 2 ≤ param1 p 4 →
      ∃ t, exec .allowanceStage s = .next t ∧ TurnedAway .refusedRange s t) ∧
    ∀ (k : Fin 16) (trigger closed : Bool), param1 p 0 = k.val → param2 p 1 ≤ 1440 →
      (param1 p 3 = 0 ∧ trigger = true ∨ param1 p 3 = 1 ∧ trigger = false) →
      (param1 p 4 = 0 ∧ closed = false ∨ param1 p 4 = 1 ∧ closed = true) →
      ∃ t, exec .allowanceStage s = .next t ∧
        ((∃ m, s.sched.commit = some m ∧ m.getLsbD k.val = true) → TurnedAway .refusedPending s t) ∧
        ((∀ m, s.sched.commit = some m → m.getLsbD k.val = false) →
          t.sched = { s.sched with shadow := t.sched.shadow } ∧ OtherEntries k s.sched.shadow t.sched.shadow ∧
            t.sched.shadow[k] = { s.sched.shadow[k] with allowance := param2 p 1, lineTrigger := trigger, closedUnset := closed } ∧
            EndsWith [.sched] [] .done [] s t)) ∧
  ∀ (s : State) (p : List Byte), commanded s 0x12 p = true →
    ∃ t, exec .scheduleCommit s = .next t ∧ (param2 p 0 = 0 → TurnedAway .refusedRange s t) ∧
      (param2 p 0 ≠ 0 → s.sched.commit ≠ none → TurnedAway .refusedPending s t) ∧
      (param2 p 0 ≠ 0 → s.sched.commit = none →
        t.sched = { s.sched with commit := some (BitVec.ofNat 16 (param2 p 0)) } ∧ EndsWith [.sched] [] .accepted [] s t)

/-- SCHEDULE_EVALUATE, GATE_SET and GRANT (R47, R48, R49, R57, R58, R59): the windows of every station are evaluated; HOST and LINE are set
and cleared on one station or on all; extra minutes are granted up to 240, ALLOWANCE cleared when used minutes are again below the limit.
Each reports the gate changes before its COMPLETION, and refused commands change nothing. -/
def Obligations.SoftwareActsOnTheGate : Prop :=
  (∀ (s : State) (p : List Byte), commanded s 0x13 p = true →
    ∃ t, exec .scheduleEvaluate s = .next t ∧
      EndsWith [.sta] (gateReports .evaluate s.sta.stations t.sta.stations) .done [] s t ∧ t.sta.unknown = s.sta.unknown ∧
      t.sta.carry = s.sta.carry ∧ (∀ i : Fin 128, s.sta.stations[i] = none → t.sta.stations[i] = none) ∧
      ∀ (i : Fin 128) (st : Station), s.sta.stations[i] = some st →
        ∃ u, t.sta.stations[i] = some u ∧ WindowEvaluated s.sched.clock s.sched.active u ∧
          u = { st with reasons := { st.reasons with window := u.reasons.window }, noUrgent := u.noUrgent, free := u.free }) ∧
  (∀ (s : State) (p : List Byte), commanded s 0x14 p = true →
    (let set := byteAt p 1
     let clear := byteAt p 2
     let wrong := ∃ b, b < 8 ∧ (b ≠ 2 ∧ b ≠ 3 ∧ (set.getLsbD b = true ∨ clear.getLsbD b = true) ∨ set.getLsbD b = true ∧ clear.getLsbD b = true)
     let given (st : Station) : Station :=
       { st with reasons := { st.reasons with
           line := (st.reasons.line || set.getLsbD 2) && !clear.getLsbD 2, host := (st.reasons.host || set.getLsbD 3) && !clear.getLsbD 3 } }
     ∃ t, exec .gateSet s = .next t ∧
       (wrong ∨ (128 ≤ param1 p 0 ∧ param1 p 0 ≠ 255) → TurnedAway .refusedRange s t) ∧
       (¬wrong → param1 p 0 = 255 →
         EndsWith [.sta] (gateReports .gateSet s.sta.stations t.sta.stations) .done [] s t ∧ t.sta.unknown = s.sta.unknown ∧
         t.sta.carry = s.sta.carry ∧ ∀ i : Fin 128, t.sta.stations[i] = (s.sta.stations[i]).map given) ∧
       ∀ i : Fin 128, ¬wrong → param1 p 0 = i.val →
         (s.sta.stations[i] = none → TurnedAway .refusedState s t) ∧
         (∀ st, s.sta.stations[i] = some st →
           EndsWith [.sta] (gateReports .gateSet s.sta.stations t.sta.stations) .done [] s t ∧ t.sta.unknown = s.sta.unknown ∧
           t.sta.carry = s.sta.carry ∧ OthersKept i s t ∧ t.sta.stations[i] = some (given st)))) ∧
  ∀ (s : State) (p : List Byte), commanded s 0x15 p = true →
    (128 ≤ param1 p 0 ∨ param1 p 1 = 0 ∨ 240 < param1 p 1 → ∃ t, exec .grant s = .next t ∧ TurnedAway .refusedRange s t) ∧
    ∀ i : Fin 128, param1 p 0 = i.val → 1 ≤ param1 p 1 → param1 p 1 ≤ 240 →
      ((s.sta.stations[i] = none ∨ ∃ st, s.sta.stations[i] = some st ∧ dayAllowance s.sched.active st.sched = 0) →
        ∃ t, exec .grant s = .next t ∧ TurnedAway .refusedState s t) ∧
      ∀ st, s.sta.stations[i] = some st → 0 < dayAllowance s.sched.active st.sched →
        ∃ t, exec .grant s = .next t ∧
          (let extra := min (st.extra + param1 p 1) 240
           let limit := min (dayAllowance s.sched.active st.sched + extra) 1440
           EndsWith [.sta] (gateReports .grant s.sta.stations t.sta.stations) .done [] s t ∧ t.sta.unknown = s.sta.unknown ∧
           t.sta.carry = s.sta.carry ∧ OthersKept i s t ∧
           t.sta.stations[i] = some { st with
             extra := extra,
             reasons := { st.reasons with allowance := if st.used < limit then false else st.reasons.allowance },
             lowSent := if 5 < limit - st.used then false else st.lowSent })

/-- NODE_SET, ROAM_PROFILE_SET, HANDOFF_BEGIN and HANDOFF_DECLINE (R113, R114, R126, R127, R130): the own node id is set and the peer entries
of that node are made absent; a roaming profile is replaced whole when every field is in its range and T_floor is below T_weak; a station
not in HANDOFF, and in HOLDOFF only with force, takes the lowest FREE slot with the tag and the uptime, and goes to HANDOFF with its
deadline, in 32 bits (log 21); a CANDIDATE that is declined goes to HOLDOFF with dwell 0. Every other case is refused by the first check
that fails. -/
def Obligations.SignalCommandsAct : Prop :=
  ((∀ (s : State) (p : List Byte), commanded s 0x17 p = true →
    ∃ t, exec .nodeSet s = .next t ∧ (7 < param1 p 0 → TurnedAway .refusedRange s t) ∧
      (param1 p 0 ≤ 7 →
        t.sig = { s.sig with node := param1 p 0 } ∧ t.sta.unknown = s.sta.unknown ∧ t.sta.carry = s.sta.carry ∧
        EndsWith [.sig, .sta] [] .done [] s t ∧ (∀ i : Fin 128, s.sta.stations[i] = none → t.sta.stations[i] = none) ∧
        ∀ (i : Fin 128) (st : Station), s.sta.stations[i] = some st →
          ((∃ q, st.peer = some q ∧ q.node = param1 p 0) → t.sta.stations[i] = some { st with peer := none }) ∧
          ((∀ q, st.peer = some q → q.node ≠ param1 p 0) → t.sta.stations[i] = some st))) ∧
  ∀ (s : State) (p : List Byte), commanded s 0x18 p = true →
    (let asked (r : RoamProfile) : Prop :=
       r.tWeak = (byteAt p 1).toInt ∧ -95 ≤ r.tWeak ∧ r.tWeak ≤ -40 ∧ r.hys = param1 p 2 ∧ 1 ≤ r.hys ∧ r.hys ≤ 15 ∧
         r.tFloor = (byteAt p 3).toInt ∧ -100 ≤ r.tFloor ∧ r.tFloor ≤ -50 ∧ r.tFloor < r.tWeak ∧
         r.dwell = param1 p 4 ∧ 1 ≤ r.dwell ∧ r.dwell ≤ 63 ∧ r.margin = param1 p 5 ∧ 1 ≤ r.margin ∧ r.margin ≤ 30 ∧
         r.gameMargin = param1 p 6 ∧ r.gameMargin ≤ 20 ∧ r.shift = param1 p 7 ∧ 1 ≤ r.shift ∧ r.shift ≤ 6 ∧
         r.urgentRecent = param1 p 8 ∧ 1 ≤ r.urgentRecent ∧ r.urgentRecent ≤ 60 ∧ r.holdoff = param1 p 9 ∧ 1 ≤ r.holdoff ∧
         r.candidateTimeout = param1 p 10 ∧ 1 ≤ r.candidateTimeout ∧ r.candidateTimeout ≤ 30 ∧
         r.handoffTimeout = param1 p 11 ∧ 1 ≤ r.handoffTimeout ∧ r.handoffTimeout ≤ 30 ∧
         r.peerMaxAge = param1 p 12 ∧ 1 ≤ r.peerMaxAge ∧ r.peerMaxAge ≤ 60 ∧
         (param1 p 13 = 0 ∧ r.cross = .none ∨ param1 p 13 = 1 ∧ r.cross = .falling ∨ param1 p 13 = 2 ∧ r.cross = .rising ∨
           param1 p 13 = 3 ∧ r.cross = .both)
     (4 ≤ param1 p 0 ∨ (¬∃ r, asked r) → ∃ t, exec .roamProfileSet s = .next t ∧ TurnedAway .refusedRange s t) ∧
     ∀ (k : Fin 4) (r : RoamProfile), param1 p 0 = k.val → asked r →
       ∃ t, exec .roamProfileSet s = .next t ∧ t.sig = { s.sig with profiles := t.sig.profiles } ∧ t.sig.profiles[k] = r ∧
         OtherEntries k s.sig.profiles t.sig.profiles ∧ EndsWith [.sig] [] .done [] s t)) ∧
  ((∀ (s : State) (p : List Byte), commanded s 0x19 p = true →
    (128 ≤ param1 p 0 ∨ 2 ≤ param1 p 3 → ∃ t, exec .handoffBegin s = .next t ∧ TurnedAway .refusedRange s t) ∧
    ∀ i : Fin 128, param1 p 0 = i.val → param1 p 3 ≤ 1 →
      (s.sta.stations[i] = none → ∃ t, exec .handoffBegin s = .next t ∧ TurnedAway .refusedState s t) ∧
      ∀ st, s.sta.stations[i] = some st →
        (let barred := st.state = .handoff ∨ st.state = .holdoff ∧ param1 p 3 = 0
         ∃ t, exec .handoffBegin s = .next t ∧ (barred → TurnedAway .refusedState s t) ∧
           (¬barred → (∀ k : Fin 16, s.hold.slots[k] ≠ .free) → TurnedAway .refusedFull s t) ∧
           ∀ k : Fin 16, ¬barred → s.hold.slots[k] = .free → (∀ j : Fin 16, j < k → s.hold.slots[j] ≠ .free) →
             t.sta.stations[i] = some { st with
               state := .handoff, slot := some k,
               deadline := (s.time.secs + (s.sig.profiles[st.roam]).handoffTimeout) % 4294967296 } ∧
             OthersKept i s t ∧ t.sta.unknown = s.sta.unknown ∧ t.sta.carry = s.sta.carry ∧
             t.hold = { s.hold with slots := t.hold.slots } ∧ OtherEntries k s.hold.slots t.hold.slots ∧
             t.hold.slots[k] = .occupied ⟨i, BitVec.ofNat 16 (param2 p 1), s.time.secs, 0, []⟩ ∧
             EndsWith [.sta, .hold] [] .done [BitVec.ofNat 8 k.val] s t)) ∧
  ∀ (s : State) (p : List Byte), commanded s 0x1A p = true →
    (128 ≤ param1 p 0 → ∃ t, exec .handoffDecline s = .next t ∧ TurnedAway .refusedRange s t) ∧
    ∀ i : Fin 128, param1 p 0 = i.val →
      ((∀ st, s.sta.stations[i] = some st → st.state ≠ .candidate) →
        ∃ t, exec .handoffDecline s = .next t ∧ TurnedAway .refusedState s t) ∧
      ∀ st, s.sta.stations[i] = some st → st.state = .candidate →
        ∃ t, exec .handoffDecline s = .next t ∧
          t.sta.stations[i] = some { st with
            state := .holdoff, dwell := 0, deadline := (s.time.secs + (s.sig.profiles[st.roam]).holdoff) % 4294967296 } ∧
          OthersKept i s t ∧ t.sta.unknown = s.sta.unknown ∧ t.sta.carry = s.sta.carry ∧ EndsWith [.sta] [] .done [] s t)

/-- STAGE_BEGIN, STAGE_CANCEL, STAGE_VERIFY and ACTIVATION_SET (R148, R151, R153, R154): a staging is opened in the other bank with its length,
CRC and version, its n chunks EMPTY; it is cancelled from any state but IDLE, stopping a sweep and W becoming 0; from COMPLETE or CORRUPT a
sweep begins at offset 0 with its share and yield flag, to wait for the staging writes received and not yet answered, ACCEPTED; the
activation window is disabled, or enabled with its days, minutes and quiet time in range. Otherwise they are refused by the first check
that fails and change nothing. That a disabled window keeps its other fields is the model's choice (log 23). -/
def Obligations.ImageCommandsAct : Prop :=
  ((∀ (s : State) (p : List Byte), commanded s 0x1C p = true →
    ∃ t, exec .stageBegin s = .next t ∧
      (let length := param4 p 0
       let version := BitVec.ofNat 32 (param4 p 8)
       let g := s.img.staging
       let range := 1 ≤ length ∧ length ≤ 16777216 ∧ param1 p 12 ≤ 1
       let busy := g.state = .receiving ∨ g.state = .complete ∨ g.state = .verifying
       let inForce : Word :=
         match s.img.record, s.img.bank with
         | none, _ => 0
         | some bs, .a => recVersionA bs
         | some bs, .b => recVersionB bs
       let older := param1 p 12 = 0 ∧ version.toNat ≤ inForce.toNat
       (¬range → TurnedAway .refusedRange s t) ∧ (range → busy → TurnedAway .refusedState s t) ∧
       (range → ¬busy → older → TurnedAway .refusedRange s t) ∧
       (range → ¬busy → ¬older →
         EndsWith [.img] [] .done [] s t ∧ t.img = { s.img with staging := t.img.staging } ∧
         t.img.staging = { g with
           state := .receiving, bank := some (match s.img.bank with | .a => .b | .b => .a), length := length,
           expectedCrc := BitVec.ofNat 32 (param4 p 4), version := version, chunkCount := (length + 65535) / 65536,
           chunks := Vector.replicate 256 ⟨.empty, 0⟩, sweep := none }))) ∧
  ∀ (s : State) (p : List Byte), commanded s 0x1D p = true →
    ∃ t, exec .stageCancel s = .next t ∧ (s.img.staging.state = .idle → TurnedAway .refusedState s t) ∧
      (s.img.staging.state ≠ .idle →
        EndsWith [.img] [] .done [] { s with path := { s.path with sweepWait := 0 } } t ∧
        t.img = { s.img with staging := t.img.staging } ∧
        t.img.staging = { s.img.staging with
          state := .idle, bank := none, chunks := Vector.replicate 256 ⟨.empty, 0⟩, sweep := none, stale := t.img.staging.stale } ∧
        (∀ v tag, s.img.staging.sweep = some v → v.step = .reading tag → t.img.staging.stale = s.img.staging.stale ++ [tag]) ∧
        ((∀ v tag, s.img.staging.sweep = some v → v.step ≠ .reading tag) → t.img.staging.stale = s.img.staging.stale))) ∧
  ((∀ (s : State) (p : List Byte) (bank : Bank), commanded s 0x1E p = true → s.img.staging.bank = some bank →
    ∃ t, exec .stageVerify s = .next t ∧
      (let g := s.img.staging
       let range := 2 ≤ param1 p 0 ∧ param1 p 0 ≤ 64 ∧ param1 p 1 ≤ 1
       let ready := g.state = .complete ∨ g.state = .corrupt
       (¬range → TurnedAway .refusedRange s t) ∧ (range → ¬ready → TurnedAway .refusedState s t) ∧
       (range → ready →
         EndsWith [.img] [] .accepted [] s t ∧
         ∃ v : Sweep, t.img = { s.img with staging := { g with state := .verifying, sweep := some v } } ∧ v.share = param1 p 0 ∧
           v.yields = decide (param1 p 1 = 1) ∧ v.offset = 0 ∧ v.crc = 0xFFFFFFFF#32 ∧ v.step = .awaiting ∧
           ∀ tag, tag ∈ v.writes ↔
             ∃ w ∈ s.path.writes, w.tag = tag ∧ bank.base ≤ w.txn.addr.toNat ∧ w.txn.addr.toNat < bank.base + 0x1000000 ∧
               (w.stage = .ready ∨ w.stage = .issued)))) ∧
  (∀ (s : State) (p : List Byte), commanded s 0x1E p = true → s.img.staging.state = .idle → 2 ≤ param1 p 0 → param1 p 0 ≤ 64 →
    param1 p 1 ≤ 1 → ∃ t, exec .stageVerify s = .next t ∧ TurnedAway .refusedState s t) ∧
  ∀ (s : State) (p : List Byte), commanded s 0x1F p = true →
    ∃ t, exec .activationSet s = .next t ∧
      (let asked := param1 p 1 < 128 ∧ param2 p 2 ≤ 1439 ∧ 1 ≤ param2 p 4 ∧ param2 p 4 ≤ 1440 ∧ param2 p 2 < param2 p 4 ∧
         10 ≤ param2 p 6 ∧ param2 p 6 ≤ 600
       (1 < param1 p 0 ∨ (param1 p 0 = 0 ∧ ¬asked) → TurnedAway .refusedRange s t) ∧
       (param1 p 0 = 1 →
         t.img = { s.img with window := { s.img.window with enabled := false } } ∧ EndsWith [.img] [] .done [] s t) ∧
       (param1 p 0 = 0 → asked →
         t.img = { s.img with window := ⟨true, BitVec.ofNat 7 (param1 p 1), param2 p 2, param2 p 4, param2 p 6⟩ } ∧
         EndsWith [.img] [] .done [] s t)))

/-- The nine invariants hold right after power-on. -/
def Obligations.InvariantsHoldAtReset : Prop :=
  CaptureInv State.reset ∧ RingInv State.reset ∧ HoldInv State.reset ∧ StationInv State.reset ∧ HandoffInv State.reset ∧
    FlowInv State.reset ∧ ClockInv State.reset ∧ PathInv State.reset ∧ WindowInv State.reset

/-- Every step keeps the rings (R159, R162, R163): 8 commands and 16 waiting reports at most, at most 255 slots in use or promised, so that
no record the host has not read is overwritten, and one report record in flight exactly while a report waits. -/
def Obligations.EveryStepKeepsTheRings : Prop := ∀ s t : State, RingInv s → step s = .next t → RingInv t

/-- Every step keeps the Station Table, the handoff slots and the hold pool (R28, R130, R131, R133, Table 2.4): no MAC stands in two records
and every field keeps to its range; a station is in HANDOFF exactly while a slot is OCCUPIED for it, and its slot field names that slot; free
pool places and listed references together are 512, and no list exceeds 32. -/
def Obligations.EveryStepKeepsStationsAndHolding : Prop :=
  (∀ s t : State, StationInv s → step s = .next t → StationInv t) ∧ (∀ s t : State, HandoffInv s → step s = .next t → HandoffInv t) ∧
    ∀ s t : State, HoldInv s → step s = .next t → HoldInv t

/-- Every step keeps the Window Table, the Flow Table, the Capture Buffer, the write lists and the clocks (R1, R4, R9, R10, R15, R25, R39, R40,
R61, R71, R82, R83): no two windows share a byte; no key stands in two records, at most 64 flows are pinned, at most 256 captures and 16
listed writes are kept, places kept for writes that may yet be entered among them (log 10), and W does not exceed 64; the clock of week,
uptime, the line filter and the pacing parameters keep to their ranges. -/
def Obligations.EveryStepKeepsTheTablesAndClocks : Prop :=
  (∀ s t : State, WindowInv s → step s = .next t → WindowInv t) ∧ (∀ s t : State, FlowInv s → step s = .next t → FlowInv t) ∧
    (∀ s t : State, CaptureInv s → step s = .next t → CaptureInv t) ∧ (∀ s t : State, PathInv s → step s = .next t → PathInv t) ∧
    ∀ s t : State, ClockInv s → step s = .next t → ClockInv t
end

