-- ==== Sys2Proof/Laws/State.lean ====
section
/-! SUPPORT. What the shared operations leave as it was: one lemma for each field of State, and the reads of indexed state after a
write. -/

namespace Sys2Proof.Machine

open Sys2Proof

/-! ### Indexed state -/

section Indexed

variable {α β : Type} {n : Nat}

theorem vput_same (v : Vector α n) (i : Fin n) (x : α) : (vput v i x)[i] = x := by simp [vput]

theorem vput_ne (v : Vector α n) (i j : Fin n) (x : α) (h : j ≠ i) : (vput v i x)[j] = v[j] := by
  have h' : i.val ≠ j.val := fun e => h (Fin.ext e.symm)
  simp [vput, h']

theorem vput_at (v : Vector α n) (i j : Fin n) (x : α) : (vput v i x)[j] = if j = i then x else v[j] := by
  split
  · next h => subst h; exact vput_same v j x
  · next h => exact vput_ne v i j x h

theorem vmod_same (v : Vector α n) (i : Fin n) (f : α → α) : (vmod v i f)[i] = f v[i] := vput_same v i _

theorem vmod_ne (v : Vector α n) (i j : Fin n) (f : α → α) (h : j ≠ i) : (vmod v i f)[j] = v[j] := vput_ne v i j _ h

theorem vmod_at (v : Vector α n) (i j : Fin n) (f : α → α) : (vmod v i f)[j] = if j = i then f v[i] else v[j] := vput_at v i j _

theorem vmap_at (f : α → β) (v : Vector α n) (i : Fin n) : (vmap f v)[i] = f v[i] := by simp [vmap]

theorem vfind_some {p : α → Bool} {v : Vector α n} {i : Fin n} (h : vfind p v = some i) : p v[i] = true := by
  simpa using List.find?_some h

theorem vfind_none {p : α → Bool} {v : Vector α n} : vfind p v = none ↔ ∀ i : Fin n, p v[i] = false := by
  simp [vfind, List.find?_eq_none]

/-- The index found is the lowest that satisfies the test. -/
theorem vfind_least {p : α → Bool} {v : Vector α n} {i j : Fin n} (h : vfind p v = some i) (hj : p v[j] = true) : i ≤ j := by
  obtain ⟨-, as, bs, hs, hn⟩ := List.find?_eq_some_iff_append.1 h
  have hlt : List.Pairwise (· < ·) (List.finRange n) := List.pairwise_lt_finRange n
  rw [hs, List.pairwise_append] at hlt
  have hm : j ∈ as ++ i :: bs := hs ▸ List.mem_finRange j
  rcases List.mem_append.1 hm with ha | hb
  · have := hn j ha; rw [hj] at this; exact absurd this (by decide)
  · rcases List.mem_cons.1 hb with rfl | hb
    · exact le_refl _
    · exact le_of_lt ((List.pairwise_cons.1 hlt.2.1).1 j hb)

end Indexed

/-! ### Frames of the shared operations -/

@[simp] theorem withPending_pins (q : List Instr) (s : State) : (s.withPending q).pins = s.pins := rfl
@[simp] theorem withPending_boot (q : List Instr) (s : State) : (s.withPending q).boot = s.boot := rfl
@[simp] theorem withPending_path (q : List Instr) (s : State) : (s.withPending q).path = s.path := rfl
@[simp] theorem withPending_own (q : List Instr) (s : State) : (s.withPending q).own = s.own := rfl
@[simp] theorem withPending_win (q : List Instr) (s : State) : (s.withPending q).win = s.win := rfl
@[simp] theorem withPending_capture (q : List Instr) (s : State) : (s.withPending q).capture = s.capture := rfl
@[simp] theorem withPending_sta (q : List Instr) (s : State) : (s.withPending q).sta = s.sta := rfl
@[simp] theorem withPending_time (q : List Instr) (s : State) : (s.withPending q).time = s.time := rfl
@[simp] theorem withPending_sched (q : List Instr) (s : State) : (s.withPending q).sched = s.sched := rfl
@[simp] theorem withPending_cls (q : List Instr) (s : State) : (s.withPending q).cls = s.cls := rfl
@[simp] theorem withPending_adm (q : List Instr) (s : State) : (s.withPending q).adm = s.adm := rfl
@[simp] theorem withPending_rew (q : List Instr) (s : State) : (s.withPending q).rew = s.rew := rfl
@[simp] theorem withPending_sig (q : List Instr) (s : State) : (s.withPending q).sig = s.sig := rfl
@[simp] theorem withPending_hold (q : List Instr) (s : State) : (s.withPending q).hold = s.hold := rfl
@[simp] theorem withPending_img (q : List Instr) (s : State) : (s.withPending q).img = s.img := rfl
@[simp] theorem withPending_cmd (q : List Instr) (s : State) : (s.withPending q).cmd = s.cmd := rfl
@[simp] theorem withPending_ports (q : List Instr) (s : State) : (s.withPending q).ports = s.ports := rfl
@[simp] theorem withPending_free (q : List Instr) (s : State) : (s.withPending q).free = s.free := rfl

@[simp] theorem spendFree_pending (s : State) : (spendFree s).pending = s.pending := rfl
@[simp] theorem spendFree_pins (s : State) : (spendFree s).pins = s.pins := rfl
@[simp] theorem spendFree_boot (s : State) : (spendFree s).boot = s.boot := rfl
@[simp] theorem spendFree_path (s : State) : (spendFree s).path = s.path := rfl
@[simp] theorem spendFree_own (s : State) : (spendFree s).own = s.own := rfl
@[simp] theorem spendFree_win (s : State) : (spendFree s).win = s.win := rfl
@[simp] theorem spendFree_capture (s : State) : (spendFree s).capture = s.capture := rfl
@[simp] theorem spendFree_sta (s : State) : (spendFree s).sta = s.sta := rfl
@[simp] theorem spendFree_time (s : State) : (spendFree s).time = s.time := rfl
@[simp] theorem spendFree_sched (s : State) : (spendFree s).sched = s.sched := rfl
@[simp] theorem spendFree_cls (s : State) : (spendFree s).cls = s.cls := rfl
@[simp] theorem spendFree_adm (s : State) : (spendFree s).adm = s.adm := rfl
@[simp] theorem spendFree_rew (s : State) : (spendFree s).rew = s.rew := rfl
@[simp] theorem spendFree_sig (s : State) : (spendFree s).sig = s.sig := rfl
@[simp] theorem spendFree_hold (s : State) : (spendFree s).hold = s.hold := rfl
@[simp] theorem spendFree_img (s : State) : (spendFree s).img = s.img := rfl
@[simp] theorem spendFree_cmd (s : State) : (spendFree s).cmd = s.cmd := rfl
@[simp] theorem spendFree_ports (s : State) : (spendFree s).ports = s.ports := rfl

@[simp] theorem putStation_pending (i : Fin 128) (o : Option Station) (s : State) : (putStation i o s).pending = s.pending := rfl
@[simp] theorem putStation_pins (i : Fin 128) (o : Option Station) (s : State) : (putStation i o s).pins = s.pins := rfl
@[simp] theorem putStation_boot (i : Fin 128) (o : Option Station) (s : State) : (putStation i o s).boot = s.boot := rfl
@[simp] theorem putStation_path (i : Fin 128) (o : Option Station) (s : State) : (putStation i o s).path = s.path := rfl
@[simp] theorem putStation_own (i : Fin 128) (o : Option Station) (s : State) : (putStation i o s).own = s.own := rfl
@[simp] theorem putStation_win (i : Fin 128) (o : Option Station) (s : State) : (putStation i o s).win = s.win := rfl
@[simp] theorem putStation_capture (i : Fin 128) (o : Option Station) (s : State) : (putStation i o s).capture = s.capture := rfl
@[simp] theorem putStation_time (i : Fin 128) (o : Option Station) (s : State) : (putStation i o s).time = s.time := rfl
@[simp] theorem putStation_sched (i : Fin 128) (o : Option Station) (s : State) : (putStation i o s).sched = s.sched := rfl
@[simp] theorem putStation_cls (i : Fin 128) (o : Option Station) (s : State) : (putStation i o s).cls = s.cls := rfl
@[simp] theorem putStation_adm (i : Fin 128) (o : Option Station) (s : State) : (putStation i o s).adm = s.adm := rfl
@[simp] theorem putStation_rew (i : Fin 128) (o : Option Station) (s : State) : (putStation i o s).rew = s.rew := rfl
@[simp] theorem putStation_sig (i : Fin 128) (o : Option Station) (s : State) : (putStation i o s).sig = s.sig := rfl
@[simp] theorem putStation_hold (i : Fin 128) (o : Option Station) (s : State) : (putStation i o s).hold = s.hold := rfl
@[simp] theorem putStation_img (i : Fin 128) (o : Option Station) (s : State) : (putStation i o s).img = s.img := rfl
@[simp] theorem putStation_cmd (i : Fin 128) (o : Option Station) (s : State) : (putStation i o s).cmd = s.cmd := rfl
@[simp] theorem putStation_ports (i : Fin 128) (o : Option Station) (s : State) : (putStation i o s).ports = s.ports := rfl
@[simp] theorem putStation_free (i : Fin 128) (o : Option Station) (s : State) : (putStation i o s).free = s.free := rfl

@[simp] theorem modStation_pending (i : Fin 128) (f : Station → Station) (s : State) : (modStation i f s).pending = s.pending := rfl
@[simp] theorem modStation_pins (i : Fin 128) (f : Station → Station) (s : State) : (modStation i f s).pins = s.pins := rfl
@[simp] theorem modStation_boot (i : Fin 128) (f : Station → Station) (s : State) : (modStation i f s).boot = s.boot := rfl
@[simp] theorem modStation_path (i : Fin 128) (f : Station → Station) (s : State) : (modStation i f s).path = s.path := rfl
@[simp] theorem modStation_own (i : Fin 128) (f : Station → Station) (s : State) : (modStation i f s).own = s.own := rfl
@[simp] theorem modStation_win (i : Fin 128) (f : Station → Station) (s : State) : (modStation i f s).win = s.win := rfl
@[simp] theorem modStation_capture (i : Fin 128) (f : Station → Station) (s : State) : (modStation i f s).capture = s.capture := rfl
@[simp] theorem modStation_time (i : Fin 128) (f : Station → Station) (s : State) : (modStation i f s).time = s.time := rfl
@[simp] theorem modStation_sched (i : Fin 128) (f : Station → Station) (s : State) : (modStation i f s).sched = s.sched := rfl
@[simp] theorem modStation_cls (i : Fin 128) (f : Station → Station) (s : State) : (modStation i f s).cls = s.cls := rfl
@[simp] theorem modStation_adm (i : Fin 128) (f : Station → Station) (s : State) : (modStation i f s).adm = s.adm := rfl
@[simp] theorem modStation_rew (i : Fin 128) (f : Station → Station) (s : State) : (modStation i f s).rew = s.rew := rfl
@[simp] theorem modStation_sig (i : Fin 128) (f : Station → Station) (s : State) : (modStation i f s).sig = s.sig := rfl
@[simp] theorem modStation_hold (i : Fin 128) (f : Station → Station) (s : State) : (modStation i f s).hold = s.hold := rfl
@[simp] theorem modStation_img (i : Fin 128) (f : Station → Station) (s : State) : (modStation i f s).img = s.img := rfl
@[simp] theorem modStation_cmd (i : Fin 128) (f : Station → Station) (s : State) : (modStation i f s).cmd = s.cmd := rfl
@[simp] theorem modStation_ports (i : Fin 128) (f : Station → Station) (s : State) : (modStation i f s).ports = s.ports := rfl
@[simp] theorem modStation_free (i : Fin 128) (f : Station → Station) (s : State) : (modStation i f s).free = s.free := rfl

@[simp] theorem mapStations_pending (f : Station → Station) (s : State) : (mapStations f s).pending = s.pending := rfl
@[simp] theorem mapStations_pins (f : Station → Station) (s : State) : (mapStations f s).pins = s.pins := rfl
@[simp] theorem mapStations_boot (f : Station → Station) (s : State) : (mapStations f s).boot = s.boot := rfl
@[simp] theorem mapStations_path (f : Station → Station) (s : State) : (mapStations f s).path = s.path := rfl
@[simp] theorem mapStations_own (f : Station → Station) (s : State) : (mapStations f s).own = s.own := rfl
@[simp] theorem mapStations_win (f : Station → Station) (s : State) : (mapStations f s).win = s.win := rfl
@[simp] theorem mapStations_capture (f : Station → Station) (s : State) : (mapStations f s).capture = s.capture := rfl
@[simp] theorem mapStations_time (f : Station → Station) (s : State) : (mapStations f s).time = s.time := rfl
@[simp] theorem mapStations_sched (f : Station → Station) (s : State) : (mapStations f s).sched = s.sched := rfl
@[simp] theorem mapStations_cls (f : Station → Station) (s : State) : (mapStations f s).cls = s.cls := rfl
@[simp] theorem mapStations_adm (f : Station → Station) (s : State) : (mapStations f s).adm = s.adm := rfl
@[simp] theorem mapStations_rew (f : Station → Station) (s : State) : (mapStations f s).rew = s.rew := rfl
@[simp] theorem mapStations_sig (f : Station → Station) (s : State) : (mapStations f s).sig = s.sig := rfl
@[simp] theorem mapStations_hold (f : Station → Station) (s : State) : (mapStations f s).hold = s.hold := rfl
@[simp] theorem mapStations_img (f : Station → Station) (s : State) : (mapStations f s).img = s.img := rfl
@[simp] theorem mapStations_cmd (f : Station → Station) (s : State) : (mapStations f s).cmd = s.cmd := rfl
@[simp] theorem mapStations_ports (f : Station → Station) (s : State) : (mapStations f s).ports = s.ports := rfl
@[simp] theorem mapStations_free (f : Station → Station) (s : State) : (mapStations f s).free = s.free := rfl

@[simp] theorem modWrite_pending (tag : Nat) (f : WriteTx → WriteTx) (s : State) : (modWrite tag f s).pending = s.pending := rfl
@[simp] theorem modWrite_pins (tag : Nat) (f : WriteTx → WriteTx) (s : State) : (modWrite tag f s).pins = s.pins := rfl
@[simp] theorem modWrite_boot (tag : Nat) (f : WriteTx → WriteTx) (s : State) : (modWrite tag f s).boot = s.boot := rfl
@[simp] theorem modWrite_own (tag : Nat) (f : WriteTx → WriteTx) (s : State) : (modWrite tag f s).own = s.own := rfl
@[simp] theorem modWrite_win (tag : Nat) (f : WriteTx → WriteTx) (s : State) : (modWrite tag f s).win = s.win := rfl
@[simp] theorem modWrite_capture (tag : Nat) (f : WriteTx → WriteTx) (s : State) : (modWrite tag f s).capture = s.capture := rfl
@[simp] theorem modWrite_sta (tag : Nat) (f : WriteTx → WriteTx) (s : State) : (modWrite tag f s).sta = s.sta := rfl
@[simp] theorem modWrite_time (tag : Nat) (f : WriteTx → WriteTx) (s : State) : (modWrite tag f s).time = s.time := rfl
@[simp] theorem modWrite_sched (tag : Nat) (f : WriteTx → WriteTx) (s : State) : (modWrite tag f s).sched = s.sched := rfl
@[simp] theorem modWrite_cls (tag : Nat) (f : WriteTx → WriteTx) (s : State) : (modWrite tag f s).cls = s.cls := rfl
@[simp] theorem modWrite_adm (tag : Nat) (f : WriteTx → WriteTx) (s : State) : (modWrite tag f s).adm = s.adm := rfl
@[simp] theorem modWrite_rew (tag : Nat) (f : WriteTx → WriteTx) (s : State) : (modWrite tag f s).rew = s.rew := rfl
@[simp] theorem modWrite_sig (tag : Nat) (f : WriteTx → WriteTx) (s : State) : (modWrite tag f s).sig = s.sig := rfl
@[simp] theorem modWrite_hold (tag : Nat) (f : WriteTx → WriteTx) (s : State) : (modWrite tag f s).hold = s.hold := rfl
@[simp] theorem modWrite_img (tag : Nat) (f : WriteTx → WriteTx) (s : State) : (modWrite tag f s).img = s.img := rfl
@[simp] theorem modWrite_cmd (tag : Nat) (f : WriteTx → WriteTx) (s : State) : (modWrite tag f s).cmd = s.cmd := rfl
@[simp] theorem modWrite_ports (tag : Nat) (f : WriteTx → WriteTx) (s : State) : (modWrite tag f s).ports = s.ports := rfl
@[simp] theorem modWrite_free (tag : Nat) (f : WriteTx → WriteTx) (s : State) : (modWrite tag f s).free = s.free := rfl

@[simp] theorem settleLists_pending (s : State) : (settleLists s).pending = s.pending := rfl
@[simp] theorem settleLists_pins (s : State) : (settleLists s).pins = s.pins := rfl
@[simp] theorem settleLists_boot (s : State) : (settleLists s).boot = s.boot := rfl
@[simp] theorem settleLists_own (s : State) : (settleLists s).own = s.own := rfl
@[simp] theorem settleLists_win (s : State) : (settleLists s).win = s.win := rfl
@[simp] theorem settleLists_capture (s : State) : (settleLists s).capture = s.capture := rfl
@[simp] theorem settleLists_sta (s : State) : (settleLists s).sta = s.sta := rfl
@[simp] theorem settleLists_time (s : State) : (settleLists s).time = s.time := rfl
@[simp] theorem settleLists_sched (s : State) : (settleLists s).sched = s.sched := rfl
@[simp] theorem settleLists_cls (s : State) : (settleLists s).cls = s.cls := rfl
@[simp] theorem settleLists_adm (s : State) : (settleLists s).adm = s.adm := rfl
@[simp] theorem settleLists_rew (s : State) : (settleLists s).rew = s.rew := rfl
@[simp] theorem settleLists_sig (s : State) : (settleLists s).sig = s.sig := rfl
@[simp] theorem settleLists_hold (s : State) : (settleLists s).hold = s.hold := rfl
@[simp] theorem settleLists_img (s : State) : (settleLists s).img = s.img := rfl
@[simp] theorem settleLists_cmd (s : State) : (settleLists s).cmd = s.cmd := rfl
@[simp] theorem settleLists_ports (s : State) : (settleLists s).ports = s.ports := rfl
@[simp] theorem settleLists_free (s : State) : (settleLists s).free = s.free := rfl

@[simp] theorem release_pending (tag : Nat) (s : State) : (release tag s).pending = s.pending := rfl
@[simp] theorem release_pins (tag : Nat) (s : State) : (release tag s).pins = s.pins := rfl
@[simp] theorem release_boot (tag : Nat) (s : State) : (release tag s).boot = s.boot := rfl
@[simp] theorem release_own (tag : Nat) (s : State) : (release tag s).own = s.own := rfl
@[simp] theorem release_win (tag : Nat) (s : State) : (release tag s).win = s.win := rfl
@[simp] theorem release_capture (tag : Nat) (s : State) : (release tag s).capture = s.capture := rfl
@[simp] theorem release_sta (tag : Nat) (s : State) : (release tag s).sta = s.sta := rfl
@[simp] theorem release_time (tag : Nat) (s : State) : (release tag s).time = s.time := rfl
@[simp] theorem release_sched (tag : Nat) (s : State) : (release tag s).sched = s.sched := rfl
@[simp] theorem release_cls (tag : Nat) (s : State) : (release tag s).cls = s.cls := rfl
@[simp] theorem release_adm (tag : Nat) (s : State) : (release tag s).adm = s.adm := rfl
@[simp] theorem release_rew (tag : Nat) (s : State) : (release tag s).rew = s.rew := rfl
@[simp] theorem release_sig (tag : Nat) (s : State) : (release tag s).sig = s.sig := rfl
@[simp] theorem release_hold (tag : Nat) (s : State) : (release tag s).hold = s.hold := rfl
@[simp] theorem release_img (tag : Nat) (s : State) : (release tag s).img = s.img := rfl
@[simp] theorem release_cmd (tag : Nat) (s : State) : (release tag s).cmd = s.cmd := rfl
@[simp] theorem release_ports (tag : Nat) (s : State) : (release tag s).ports = s.ports := rfl
@[simp] theorem release_free (tag : Nat) (s : State) : (release tag s).free = s.free := rfl

@[simp] theorem refuseWrite_pending (tag : Nat) (s : State) : (refuseWrite tag s).pending = s.pending := rfl
@[simp] theorem refuseWrite_pins (tag : Nat) (s : State) : (refuseWrite tag s).pins = s.pins := rfl
@[simp] theorem refuseWrite_boot (tag : Nat) (s : State) : (refuseWrite tag s).boot = s.boot := rfl
@[simp] theorem refuseWrite_own (tag : Nat) (s : State) : (refuseWrite tag s).own = s.own := rfl
@[simp] theorem refuseWrite_win (tag : Nat) (s : State) : (refuseWrite tag s).win = s.win := rfl
@[simp] theorem refuseWrite_capture (tag : Nat) (s : State) : (refuseWrite tag s).capture = s.capture := rfl
@[simp] theorem refuseWrite_sta (tag : Nat) (s : State) : (refuseWrite tag s).sta = s.sta := rfl
@[simp] theorem refuseWrite_time (tag : Nat) (s : State) : (refuseWrite tag s).time = s.time := rfl
@[simp] theorem refuseWrite_sched (tag : Nat) (s : State) : (refuseWrite tag s).sched = s.sched := rfl
@[simp] theorem refuseWrite_cls (tag : Nat) (s : State) : (refuseWrite tag s).cls = s.cls := rfl
@[simp] theorem refuseWrite_adm (tag : Nat) (s : State) : (refuseWrite tag s).adm = s.adm := rfl
@[simp] theorem refuseWrite_rew (tag : Nat) (s : State) : (refuseWrite tag s).rew = s.rew := rfl
@[simp] theorem refuseWrite_sig (tag : Nat) (s : State) : (refuseWrite tag s).sig = s.sig := rfl
@[simp] theorem refuseWrite_hold (tag : Nat) (s : State) : (refuseWrite tag s).hold = s.hold := rfl
@[simp] theorem refuseWrite_img (tag : Nat) (s : State) : (refuseWrite tag s).img = s.img := rfl
@[simp] theorem refuseWrite_cmd (tag : Nat) (s : State) : (refuseWrite tag s).cmd = s.cmd := rfl
@[simp] theorem refuseWrite_ports (tag : Nat) (s : State) : (refuseWrite tag s).ports = s.ports := rfl
@[simp] theorem refuseWrite_free (tag : Nat) (s : State) : (refuseWrite tag s).free = s.free := rfl

@[simp] theorem hold_pending (tag : Nat) (s : State) : (Machine.hold tag s).pending = s.pending := rfl
@[simp] theorem hold_pins (tag : Nat) (s : State) : (Machine.hold tag s).pins = s.pins := rfl
@[simp] theorem hold_boot (tag : Nat) (s : State) : (Machine.hold tag s).boot = s.boot := rfl
@[simp] theorem hold_own (tag : Nat) (s : State) : (Machine.hold tag s).own = s.own := rfl
@[simp] theorem hold_win (tag : Nat) (s : State) : (Machine.hold tag s).win = s.win := rfl
@[simp] theorem hold_capture (tag : Nat) (s : State) : (Machine.hold tag s).capture = s.capture := rfl
@[simp] theorem hold_sta (tag : Nat) (s : State) : (Machine.hold tag s).sta = s.sta := rfl
@[simp] theorem hold_time (tag : Nat) (s : State) : (Machine.hold tag s).time = s.time := rfl
@[simp] theorem hold_sched (tag : Nat) (s : State) : (Machine.hold tag s).sched = s.sched := rfl
@[simp] theorem hold_cls (tag : Nat) (s : State) : (Machine.hold tag s).cls = s.cls := rfl
@[simp] theorem hold_adm (tag : Nat) (s : State) : (Machine.hold tag s).adm = s.adm := rfl
@[simp] theorem hold_rew (tag : Nat) (s : State) : (Machine.hold tag s).rew = s.rew := rfl
@[simp] theorem hold_sig (tag : Nat) (s : State) : (Machine.hold tag s).sig = s.sig := rfl
@[simp] theorem hold_hold (tag : Nat) (s : State) : (Machine.hold tag s).hold = s.hold := rfl
@[simp] theorem hold_img (tag : Nat) (s : State) : (Machine.hold tag s).img = s.img := rfl
@[simp] theorem hold_cmd (tag : Nat) (s : State) : (Machine.hold tag s).cmd = s.cmd := rfl
@[simp] theorem hold_ports (tag : Nat) (s : State) : (Machine.hold tag s).ports = s.ports := rfl
@[simp] theorem hold_free (tag : Nat) (s : State) : (Machine.hold tag s).free = s.free := rfl

@[simp] theorem emit_pending (e : PortEvent) (s : State) : (emit e s).pending = s.pending := rfl
@[simp] theorem emit_pins (e : PortEvent) (s : State) : (emit e s).pins = s.pins := rfl
@[simp] theorem emit_boot (e : PortEvent) (s : State) : (emit e s).boot = s.boot := rfl
@[simp] theorem emit_path (e : PortEvent) (s : State) : (emit e s).path = s.path := rfl
@[simp] theorem emit_own (e : PortEvent) (s : State) : (emit e s).own = s.own := rfl
@[simp] theorem emit_win (e : PortEvent) (s : State) : (emit e s).win = s.win := rfl
@[simp] theorem emit_capture (e : PortEvent) (s : State) : (emit e s).capture = s.capture := rfl
@[simp] theorem emit_sta (e : PortEvent) (s : State) : (emit e s).sta = s.sta := rfl
@[simp] theorem emit_time (e : PortEvent) (s : State) : (emit e s).time = s.time := rfl
@[simp] theorem emit_sched (e : PortEvent) (s : State) : (emit e s).sched = s.sched := rfl
@[simp] theorem emit_cls (e : PortEvent) (s : State) : (emit e s).cls = s.cls := rfl
@[simp] theorem emit_adm (e : PortEvent) (s : State) : (emit e s).adm = s.adm := rfl
@[simp] theorem emit_rew (e : PortEvent) (s : State) : (emit e s).rew = s.rew := rfl
@[simp] theorem emit_sig (e : PortEvent) (s : State) : (emit e s).sig = s.sig := rfl
@[simp] theorem emit_hold (e : PortEvent) (s : State) : (emit e s).hold = s.hold := rfl
@[simp] theorem emit_img (e : PortEvent) (s : State) : (emit e s).img = s.img := rfl
@[simp] theorem emit_cmd (e : PortEvent) (s : State) : (emit e s).cmd = s.cmd := rfl
@[simp] theorem emit_free (e : PortEvent) (s : State) : (emit e s).free = s.free := rfl

@[simp] theorem request_pending (w : OwnWrite) (s : State) : (request w s).pending = s.pending := rfl
@[simp] theorem request_pins (w : OwnWrite) (s : State) : (request w s).pins = s.pins := rfl
@[simp] theorem request_boot (w : OwnWrite) (s : State) : (request w s).boot = s.boot := rfl
@[simp] theorem request_path (w : OwnWrite) (s : State) : (request w s).path = s.path := rfl
@[simp] theorem request_win (w : OwnWrite) (s : State) : (request w s).win = s.win := rfl
@[simp] theorem request_capture (w : OwnWrite) (s : State) : (request w s).capture = s.capture := rfl
@[simp] theorem request_sta (w : OwnWrite) (s : State) : (request w s).sta = s.sta := rfl
@[simp] theorem request_time (w : OwnWrite) (s : State) : (request w s).time = s.time := rfl
@[simp] theorem request_sched (w : OwnWrite) (s : State) : (request w s).sched = s.sched := rfl
@[simp] theorem request_cls (w : OwnWrite) (s : State) : (request w s).cls = s.cls := rfl
@[simp] theorem request_adm (w : OwnWrite) (s : State) : (request w s).adm = s.adm := rfl
@[simp] theorem request_rew (w : OwnWrite) (s : State) : (request w s).rew = s.rew := rfl
@[simp] theorem request_sig (w : OwnWrite) (s : State) : (request w s).sig = s.sig := rfl
@[simp] theorem request_hold (w : OwnWrite) (s : State) : (request w s).hold = s.hold := rfl
@[simp] theorem request_img (w : OwnWrite) (s : State) : (request w s).img = s.img := rfl
@[simp] theorem request_cmd (w : OwnWrite) (s : State) : (request w s).cmd = s.cmd := rfl
@[simp] theorem request_ports (w : OwnWrite) (s : State) : (request w s).ports = s.ports := rfl
@[simp] theorem request_free (w : OwnWrite) (s : State) : (request w s).free = s.free := rfl

@[simp] theorem requestReport_pending (w : Waiting) (s : State) : (requestReport w s).pending = s.pending := rfl
@[simp] theorem requestReport_pins (w : Waiting) (s : State) : (requestReport w s).pins = s.pins := rfl
@[simp] theorem requestReport_boot (w : Waiting) (s : State) : (requestReport w s).boot = s.boot := rfl
@[simp] theorem requestReport_path (w : Waiting) (s : State) : (requestReport w s).path = s.path := rfl
@[simp] theorem requestReport_win (w : Waiting) (s : State) : (requestReport w s).win = s.win := rfl
@[simp] theorem requestReport_capture (w : Waiting) (s : State) : (requestReport w s).capture = s.capture := rfl
@[simp] theorem requestReport_sta (w : Waiting) (s : State) : (requestReport w s).sta = s.sta := rfl
@[simp] theorem requestReport_time (w : Waiting) (s : State) : (requestReport w s).time = s.time := rfl
@[simp] theorem requestReport_sched (w : Waiting) (s : State) : (requestReport w s).sched = s.sched := rfl
@[simp] theorem requestReport_cls (w : Waiting) (s : State) : (requestReport w s).cls = s.cls := rfl
@[simp] theorem requestReport_adm (w : Waiting) (s : State) : (requestReport w s).adm = s.adm := rfl
@[simp] theorem requestReport_rew (w : Waiting) (s : State) : (requestReport w s).rew = s.rew := rfl
@[simp] theorem requestReport_sig (w : Waiting) (s : State) : (requestReport w s).sig = s.sig := rfl
@[simp] theorem requestReport_hold (w : Waiting) (s : State) : (requestReport w s).hold = s.hold := rfl
@[simp] theorem requestReport_img (w : Waiting) (s : State) : (requestReport w s).img = s.img := rfl
@[simp] theorem requestReport_cmd (w : Waiting) (s : State) : (requestReport w s).cmd = s.cmd := rfl
@[simp] theorem requestReport_ports (w : Waiting) (s : State) : (requestReport w s).ports = s.ports := rfl
@[simp] theorem requestReport_free (w : Waiting) (s : State) : (requestReport w s).free = s.free := rfl

@[simp] theorem requestHead_pending (s : State) : (requestHead s).pending = s.pending := rfl
@[simp] theorem requestHead_pins (s : State) : (requestHead s).pins = s.pins := rfl
@[simp] theorem requestHead_boot (s : State) : (requestHead s).boot = s.boot := rfl
@[simp] theorem requestHead_path (s : State) : (requestHead s).path = s.path := rfl
@[simp] theorem requestHead_win (s : State) : (requestHead s).win = s.win := rfl
@[simp] theorem requestHead_capture (s : State) : (requestHead s).capture = s.capture := rfl
@[simp] theorem requestHead_sta (s : State) : (requestHead s).sta = s.sta := rfl
@[simp] theorem requestHead_time (s : State) : (requestHead s).time = s.time := rfl
@[simp] theorem requestHead_sched (s : State) : (requestHead s).sched = s.sched := rfl
@[simp] theorem requestHead_cls (s : State) : (requestHead s).cls = s.cls := rfl
@[simp] theorem requestHead_adm (s : State) : (requestHead s).adm = s.adm := rfl
@[simp] theorem requestHead_rew (s : State) : (requestHead s).rew = s.rew := rfl
@[simp] theorem requestHead_sig (s : State) : (requestHead s).sig = s.sig := rfl
@[simp] theorem requestHead_hold (s : State) : (requestHead s).hold = s.hold := rfl
@[simp] theorem requestHead_img (s : State) : (requestHead s).img = s.img := rfl
@[simp] theorem requestHead_cmd (s : State) : (requestHead s).cmd = s.cmd := rfl
@[simp] theorem requestHead_ports (s : State) : (requestHead s).ports = s.ports := rfl
@[simp] theorem requestHead_free (s : State) : (requestHead s).free = s.free := rfl

@[simp] theorem appendReport_pending (r : Report) (s : State) : (appendReport r s).pending = s.pending := by
  unfold appendReport; dsimp only; split <;> rfl
@[simp] theorem appendReport_pins (r : Report) (s : State) : (appendReport r s).pins = s.pins := by
  unfold appendReport; dsimp only; split <;> rfl
@[simp] theorem appendReport_boot (r : Report) (s : State) : (appendReport r s).boot = s.boot := by
  unfold appendReport; dsimp only; split <;> rfl
@[simp] theorem appendReport_path (r : Report) (s : State) : (appendReport r s).path = s.path := by
  unfold appendReport; dsimp only; split <;> rfl
@[simp] theorem appendReport_win (r : Report) (s : State) : (appendReport r s).win = s.win := by
  unfold appendReport; dsimp only; split <;> rfl
@[simp] theorem appendReport_capture (r : Report) (s : State) : (appendReport r s).capture = s.capture := by
  unfold appendReport; dsimp only; split <;> rfl
@[simp] theorem appendReport_sta (r : Report) (s : State) : (appendReport r s).sta = s.sta := by
  unfold appendReport; dsimp only; split <;> rfl
@[simp] theorem appendReport_time (r : Report) (s : State) : (appendReport r s).time = s.time := by
  unfold appendReport; dsimp only; split <;> rfl
@[simp] theorem appendReport_sched (r : Report) (s : State) : (appendReport r s).sched = s.sched := by
  unfold appendReport; dsimp only; split <;> rfl
@[simp] theorem appendReport_cls (r : Report) (s : State) : (appendReport r s).cls = s.cls := by
  unfold appendReport; dsimp only; split <;> rfl
@[simp] theorem appendReport_adm (r : Report) (s : State) : (appendReport r s).adm = s.adm := by
  unfold appendReport; dsimp only; split <;> rfl
@[simp] theorem appendReport_rew (r : Report) (s : State) : (appendReport r s).rew = s.rew := by
  unfold appendReport; dsimp only; split <;> rfl
@[simp] theorem appendReport_sig (r : Report) (s : State) : (appendReport r s).sig = s.sig := by
  unfold appendReport; dsimp only; split <;> rfl
@[simp] theorem appendReport_hold (r : Report) (s : State) : (appendReport r s).hold = s.hold := by
  unfold appendReport; dsimp only; split <;> rfl
@[simp] theorem appendReport_img (r : Report) (s : State) : (appendReport r s).img = s.img := by
  unfold appendReport; dsimp only; split <;> rfl
@[simp] theorem appendReport_ports (r : Report) (s : State) : (appendReport r s).ports = s.ports := by
  unfold appendReport; dsimp only; split <;> rfl
@[simp] theorem appendReport_free (r : Report) (s : State) : (appendReport r s).free = s.free := by
  unfold appendReport; dsimp only; split <;> rfl

@[simp] theorem offerLost_pending (s : State) : (offerLost s).pending = s.pending := by
  unfold offerLost; split
  · dsimp only; rw [appendReport_pending]
  · rfl
@[simp] theorem offerLost_pins (s : State) : (offerLost s).pins = s.pins := by
  unfold offerLost; split
  · dsimp only; rw [appendReport_pins]
  · rfl
@[simp] theorem offerLost_boot (s : State) : (offerLost s).boot = s.boot := by
  unfold offerLost; split
  · dsimp only; rw [appendReport_boot]
  · rfl
@[simp] theorem offerLost_path (s : State) : (offerLost s).path = s.path := by
  unfold offerLost; split
  · dsimp only; rw [appendReport_path]
  · rfl
@[simp] theorem offerLost_win (s : State) : (offerLost s).win = s.win := by
  unfold offerLost; split
  · dsimp only; rw [appendReport_win]
  · rfl
@[simp] theorem offerLost_capture (s : State) : (offerLost s).capture = s.capture := by
  unfold offerLost; split
  · dsimp only; rw [appendReport_capture]
  · rfl
@[simp] theorem offerLost_sta (s : State) : (offerLost s).sta = s.sta := by
  unfold offerLost; split
  · dsimp only; rw [appendReport_sta]
  · rfl
@[simp] theorem offerLost_time (s : State) : (offerLost s).time = s.time := by
  unfold offerLost; split
  · dsimp only; rw [appendReport_time]
  · rfl
@[simp] theorem offerLost_sched (s : State) : (offerLost s).sched = s.sched := by
  unfold offerLost; split
  · dsimp only; rw [appendReport_sched]
  · rfl
@[simp] theorem offerLost_cls (s : State) : (offerLost s).cls = s.cls := by
  unfold offerLost; split
  · dsimp only; rw [appendReport_cls]
  · rfl
@[simp] theorem offerLost_adm (s : State) : (offerLost s).adm = s.adm := by
  unfold offerLost; split
  · dsimp only; rw [appendReport_adm]
  · rfl
@[simp] theorem offerLost_rew (s : State) : (offerLost s).rew = s.rew := by
  unfold offerLost; split
  · dsimp only; rw [appendReport_rew]
  · rfl
@[simp] theorem offerLost_sig (s : State) : (offerLost s).sig = s.sig := by
  unfold offerLost; split
  · dsimp only; rw [appendReport_sig]
  · rfl
@[simp] theorem offerLost_hold (s : State) : (offerLost s).hold = s.hold := by
  unfold offerLost; split
  · dsimp only; rw [appendReport_hold]
  · rfl
@[simp] theorem offerLost_img (s : State) : (offerLost s).img = s.img := by
  unfold offerLost; split
  · dsimp only; rw [appendReport_img]
  · rfl
@[simp] theorem offerLost_ports (s : State) : (offerLost s).ports = s.ports := by
  unfold offerLost; split
  · dsimp only; rw [appendReport_ports]
  · rfl
@[simp] theorem offerLost_free (s : State) : (offerLost s).free = s.free := by
  unfold offerLost; split
  · dsimp only; rw [appendReport_free]
  · rfl

@[simp] theorem offer_pending (r : Report) (s : State) : (offer r s).pending = s.pending := by
  unfold offer; dsimp only; split
  · rw [appendReport_pending, offerLost_pending]
  · exact offerLost_pending s
@[simp] theorem offer_pins (r : Report) (s : State) : (offer r s).pins = s.pins := by
  unfold offer; dsimp only; split
  · rw [appendReport_pins, offerLost_pins]
  · exact offerLost_pins s
@[simp] theorem offer_boot (r : Report) (s : State) : (offer r s).boot = s.boot := by
  unfold offer; dsimp only; split
  · rw [appendReport_boot, offerLost_boot]
  · exact offerLost_boot s
@[simp] theorem offer_path (r : Report) (s : State) : (offer r s).path = s.path := by
  unfold offer; dsimp only; split
  · rw [appendReport_path, offerLost_path]
  · exact offerLost_path s
@[simp] theorem offer_win (r : Report) (s : State) : (offer r s).win = s.win := by
  unfold offer; dsimp only; split
  · rw [appendReport_win, offerLost_win]
  · exact offerLost_win s
@[simp] theorem offer_capture (r : Report) (s : State) : (offer r s).capture = s.capture := by
  unfold offer; dsimp only; split
  · rw [appendReport_capture, offerLost_capture]
  · exact offerLost_capture s
@[simp] theorem offer_sta (r : Report) (s : State) : (offer r s).sta = s.sta := by
  unfold offer; dsimp only; split
  · rw [appendReport_sta, offerLost_sta]
  · exact offerLost_sta s
@[simp] theorem offer_time (r : Report) (s : State) : (offer r s).time = s.time := by
  unfold offer; dsimp only; split
  · rw [appendReport_time, offerLost_time]
  · exact offerLost_time s
@[simp] theorem offer_sched (r : Report) (s : State) : (offer r s).sched = s.sched := by
  unfold offer; dsimp only; split
  · rw [appendReport_sched, offerLost_sched]
  · exact offerLost_sched s
@[simp] theorem offer_cls (r : Report) (s : State) : (offer r s).cls = s.cls := by
  unfold offer; dsimp only; split
  · rw [appendReport_cls, offerLost_cls]
  · exact offerLost_cls s
@[simp] theorem offer_adm (r : Report) (s : State) : (offer r s).adm = s.adm := by
  unfold offer; dsimp only; split
  · rw [appendReport_adm, offerLost_adm]
  · exact offerLost_adm s
@[simp] theorem offer_rew (r : Report) (s : State) : (offer r s).rew = s.rew := by
  unfold offer; dsimp only; split
  · rw [appendReport_rew, offerLost_rew]
  · exact offerLost_rew s
@[simp] theorem offer_sig (r : Report) (s : State) : (offer r s).sig = s.sig := by
  unfold offer; dsimp only; split
  · rw [appendReport_sig, offerLost_sig]
  · exact offerLost_sig s
@[simp] theorem offer_hold (r : Report) (s : State) : (offer r s).hold = s.hold := by
  unfold offer; dsimp only; split
  · rw [appendReport_hold, offerLost_hold]
  · exact offerLost_hold s
@[simp] theorem offer_img (r : Report) (s : State) : (offer r s).img = s.img := by
  unfold offer; dsimp only; split
  · rw [appendReport_img, offerLost_img]
  · exact offerLost_img s
@[simp] theorem offer_ports (r : Report) (s : State) : (offer r s).ports = s.ports := by
  unfold offer; dsimp only; split
  · rw [appendReport_ports, offerLost_ports]
  · exact offerLost_ports s
@[simp] theorem offer_free (r : Report) (s : State) : (offer r s).free = s.free := by
  unfold offer; dsimp only; split
  · rw [appendReport_free, offerLost_free]
  · exact offerLost_free s

@[simp] theorem offerAll_pending (rs : List Report) (s : State) : (offerAll rs s).pending = s.pending := by
  unfold offerAll
  induction rs generalizing s with
  | nil => rfl
  | cons r rs ih => rw [List.foldl_cons, ih, offer_pending]
@[simp] theorem offerAll_pins (rs : List Report) (s : State) : (offerAll rs s).pins = s.pins := by
  unfold offerAll
  induction rs generalizing s with
  | nil => rfl
  | cons r rs ih => rw [List.foldl_cons, ih, offer_pins]
@[simp] theorem offerAll_boot (rs : List Report) (s : State) : (offerAll rs s).boot = s.boot := by
  unfold offerAll
  induction rs generalizing s with
  | nil => rfl
  | cons r rs ih => rw [List.foldl_cons, ih, offer_boot]
@[simp] theorem offerAll_path (rs : List Report) (s : State) : (offerAll rs s).path = s.path := by
  unfold offerAll
  induction rs generalizing s with
  | nil => rfl
  | cons r rs ih => rw [List.foldl_cons, ih, offer_path]
@[simp] theorem offerAll_win (rs : List Report) (s : State) : (offerAll rs s).win = s.win := by
  unfold offerAll
  induction rs generalizing s with
  | nil => rfl
  | cons r rs ih => rw [List.foldl_cons, ih, offer_win]
@[simp] theorem offerAll_capture (rs : List Report) (s : State) : (offerAll rs s).capture = s.capture := by
  unfold offerAll
  induction rs generalizing s with
  | nil => rfl
  | cons r rs ih => rw [List.foldl_cons, ih, offer_capture]
@[simp] theorem offerAll_sta (rs : List Report) (s : State) : (offerAll rs s).sta = s.sta := by
  unfold offerAll
  induction rs generalizing s with
  | nil => rfl
  | cons r rs ih => rw [List.foldl_cons, ih, offer_sta]
@[simp] theorem offerAll_time (rs : List Report) (s : State) : (offerAll rs s).time = s.time := by
  unfold offerAll
  induction rs generalizing s with
  | nil => rfl
  | cons r rs ih => rw [List.foldl_cons, ih, offer_time]
@[simp] theorem offerAll_sched (rs : List Report) (s : State) : (offerAll rs s).sched = s.sched := by
  unfold offerAll
  induction rs generalizing s with
  | nil => rfl
  | cons r rs ih => rw [List.foldl_cons, ih, offer_sched]
@[simp] theorem offerAll_cls (rs : List Report) (s : State) : (offerAll rs s).cls = s.cls := by
  unfold offerAll
  induction rs generalizing s with
  | nil => rfl
  | cons r rs ih => rw [List.foldl_cons, ih, offer_cls]
@[simp] theorem offerAll_adm (rs : List Report) (s : State) : (offerAll rs s).adm = s.adm := by
  unfold offerAll
  induction rs generalizing s with
  | nil => rfl
  | cons r rs ih => rw [List.foldl_cons, ih, offer_adm]
@[simp] theorem offerAll_rew (rs : List Report) (s : State) : (offerAll rs s).rew = s.rew := by
  unfold offerAll
  induction rs generalizing s with
  | nil => rfl
  | cons r rs ih => rw [List.foldl_cons, ih, offer_rew]
@[simp] theorem offerAll_sig (rs : List Report) (s : State) : (offerAll rs s).sig = s.sig := by
  unfold offerAll
  induction rs generalizing s with
  | nil => rfl
  | cons r rs ih => rw [List.foldl_cons, ih, offer_sig]
@[simp] theorem offerAll_hold (rs : List Report) (s : State) : (offerAll rs s).hold = s.hold := by
  unfold offerAll
  induction rs generalizing s with
  | nil => rfl
  | cons r rs ih => rw [List.foldl_cons, ih, offer_hold]
@[simp] theorem offerAll_img (rs : List Report) (s : State) : (offerAll rs s).img = s.img := by
  unfold offerAll
  induction rs generalizing s with
  | nil => rfl
  | cons r rs ih => rw [List.foldl_cons, ih, offer_img]
@[simp] theorem offerAll_ports (rs : List Report) (s : State) : (offerAll rs s).ports = s.ports := by
  unfold offerAll
  induction rs generalizing s with
  | nil => rfl
  | cons r rs ih => rw [List.foldl_cons, ih, offer_ports]
@[simp] theorem offerAll_free (rs : List Report) (s : State) : (offerAll rs s).free = s.free := by
  unfold offerAll
  induction rs generalizing s with
  | nil => rfl
  | cons r rs ih => rw [List.foldl_cons, ih, offer_free]

@[simp] theorem capture_pending (b : List Byte) (s : State) : (Machine.capture b s).pending = s.pending := rfl
@[simp] theorem capture_pins (b : List Byte) (s : State) : (Machine.capture b s).pins = s.pins := rfl
@[simp] theorem capture_boot (b : List Byte) (s : State) : (Machine.capture b s).boot = s.boot := rfl
@[simp] theorem capture_path (b : List Byte) (s : State) : (Machine.capture b s).path = s.path := rfl
@[simp] theorem capture_own (b : List Byte) (s : State) : (Machine.capture b s).own = s.own := rfl
@[simp] theorem capture_win (b : List Byte) (s : State) : (Machine.capture b s).win = s.win := rfl
@[simp] theorem capture_capture (b : List Byte) (s : State) : (Machine.capture b s).capture = s.capture := rfl
@[simp] theorem capture_sta (b : List Byte) (s : State) : (Machine.capture b s).sta = s.sta := rfl
@[simp] theorem capture_time (b : List Byte) (s : State) : (Machine.capture b s).time = s.time := rfl
@[simp] theorem capture_sched (b : List Byte) (s : State) : (Machine.capture b s).sched = s.sched := rfl
@[simp] theorem capture_cls (b : List Byte) (s : State) : (Machine.capture b s).cls = s.cls := rfl
@[simp] theorem capture_adm (b : List Byte) (s : State) : (Machine.capture b s).adm = s.adm := rfl
@[simp] theorem capture_rew (b : List Byte) (s : State) : (Machine.capture b s).rew = s.rew := rfl
@[simp] theorem capture_sig (b : List Byte) (s : State) : (Machine.capture b s).sig = s.sig := rfl
@[simp] theorem capture_hold (b : List Byte) (s : State) : (Machine.capture b s).hold = s.hold := rfl
@[simp] theorem capture_img (b : List Byte) (s : State) : (Machine.capture b s).img = s.img := rfl
@[simp] theorem capture_ports (b : List Byte) (s : State) : (Machine.capture b s).ports = s.ports := rfl
@[simp] theorem capture_free (b : List Byte) (s : State) : (Machine.capture b s).free = s.free := rfl

@[simp] theorem captureHeld_pending (s : State) : (captureHeld s).pending = s.pending := by
  unfold captureHeld; split
  · rfl
  · split
    · split <;> rfl
    · rfl
@[simp] theorem captureHeld_pins (s : State) : (captureHeld s).pins = s.pins := by
  unfold captureHeld; split
  · rfl
  · split
    · split <;> rfl
    · rfl
@[simp] theorem captureHeld_boot (s : State) : (captureHeld s).boot = s.boot := by
  unfold captureHeld; split
  · rfl
  · split
    · split <;> rfl
    · rfl
@[simp] theorem captureHeld_own (s : State) : (captureHeld s).own = s.own := by
  unfold captureHeld; split
  · rfl
  · split
    · split <;> rfl
    · rfl
@[simp] theorem captureHeld_win (s : State) : (captureHeld s).win = s.win := by
  unfold captureHeld; split
  · rfl
  · split
    · split <;> rfl
    · rfl
@[simp] theorem captureHeld_capture (s : State) : (captureHeld s).capture = s.capture := by
  unfold captureHeld; split
  · rfl
  · split
    · split <;> rfl
    · rfl
@[simp] theorem captureHeld_sta (s : State) : (captureHeld s).sta = s.sta := by
  unfold captureHeld; split
  · rfl
  · split
    · split <;> rfl
    · rfl
@[simp] theorem captureHeld_time (s : State) : (captureHeld s).time = s.time := by
  unfold captureHeld; split
  · rfl
  · split
    · split <;> rfl
    · rfl
@[simp] theorem captureHeld_sched (s : State) : (captureHeld s).sched = s.sched := by
  unfold captureHeld; split
  · rfl
  · split
    · split <;> rfl
    · rfl
@[simp] theorem captureHeld_cls (s : State) : (captureHeld s).cls = s.cls := by
  unfold captureHeld; split
  · rfl
  · split
    · split <;> rfl
    · rfl
@[simp] theorem captureHeld_adm (s : State) : (captureHeld s).adm = s.adm := by
  unfold captureHeld; split
  · rfl
  · split
    · split <;> rfl
    · rfl
@[simp] theorem captureHeld_rew (s : State) : (captureHeld s).rew = s.rew := by
  unfold captureHeld; split
  · rfl
  · split
    · split <;> rfl
    · rfl
@[simp] theorem captureHeld_sig (s : State) : (captureHeld s).sig = s.sig := by
  unfold captureHeld; split
  · rfl
  · split
    · split <;> rfl
    · rfl
@[simp] theorem captureHeld_hold (s : State) : (captureHeld s).hold = s.hold := by
  unfold captureHeld; split
  · rfl
  · split
    · split <;> rfl
    · rfl
@[simp] theorem captureHeld_img (s : State) : (captureHeld s).img = s.img := by
  unfold captureHeld; split
  · rfl
  · split
    · split <;> rfl
    · rfl
@[simp] theorem captureHeld_ports (s : State) : (captureHeld s).ports = s.ports := by
  unfold captureHeld; split
  · rfl
  · split
    · split <;> rfl
    · rfl
@[simp] theorem captureHeld_free (s : State) : (captureHeld s).free = s.free := by
  unfold captureHeld; split
  · rfl
  · split
    · split <;> rfl
    · rfl

@[simp] theorem completeCommand_pending (st : Status) (res : List Byte) (s : State) : (completeCommand st res s).pending = s.pending := by
  unfold completeCommand; split
  · rfl
  · dsimp only; rw [captureHeld_pending]; exact offer_pending _ s
@[simp] theorem completeCommand_pins (st : Status) (res : List Byte) (s : State) : (completeCommand st res s).pins = s.pins := by
  unfold completeCommand; split
  · rfl
  · dsimp only; rw [captureHeld_pins]; exact offer_pins _ s
@[simp] theorem completeCommand_boot (st : Status) (res : List Byte) (s : State) : (completeCommand st res s).boot = s.boot := by
  unfold completeCommand; split
  · rfl
  · dsimp only; rw [captureHeld_boot]; exact offer_boot _ s
@[simp] theorem completeCommand_win (st : Status) (res : List Byte) (s : State) : (completeCommand st res s).win = s.win := by
  unfold completeCommand; split
  · rfl
  · dsimp only; rw [captureHeld_win]; exact offer_win _ s
@[simp] theorem completeCommand_capture (st : Status) (res : List Byte) (s : State) : (completeCommand st res s).capture = s.capture := by
  unfold completeCommand; split
  · rfl
  · dsimp only; rw [captureHeld_capture]; exact offer_capture _ s
@[simp] theorem completeCommand_sta (st : Status) (res : List Byte) (s : State) : (completeCommand st res s).sta = s.sta := by
  unfold completeCommand; split
  · rfl
  · dsimp only; rw [captureHeld_sta]; exact offer_sta _ s
@[simp] theorem completeCommand_time (st : Status) (res : List Byte) (s : State) : (completeCommand st res s).time = s.time := by
  unfold completeCommand; split
  · rfl
  · dsimp only; rw [captureHeld_time]; exact offer_time _ s
@[simp] theorem completeCommand_sched (st : Status) (res : List Byte) (s : State) : (completeCommand st res s).sched = s.sched := by
  unfold completeCommand; split
  · rfl
  · dsimp only; rw [captureHeld_sched]; exact offer_sched _ s
@[simp] theorem completeCommand_cls (st : Status) (res : List Byte) (s : State) : (completeCommand st res s).cls = s.cls := by
  unfold completeCommand; split
  · rfl
  · dsimp only; rw [captureHeld_cls]; exact offer_cls _ s
@[simp] theorem completeCommand_adm (st : Status) (res : List Byte) (s : State) : (completeCommand st res s).adm = s.adm := by
  unfold completeCommand; split
  · rfl
  · dsimp only; rw [captureHeld_adm]; exact offer_adm _ s
@[simp] theorem completeCommand_rew (st : Status) (res : List Byte) (s : State) : (completeCommand st res s).rew = s.rew := by
  unfold completeCommand; split
  · rfl
  · dsimp only; rw [captureHeld_rew]; exact offer_rew _ s
@[simp] theorem completeCommand_sig (st : Status) (res : List Byte) (s : State) : (completeCommand st res s).sig = s.sig := by
  unfold completeCommand; split
  · rfl
  · dsimp only; rw [captureHeld_sig]; exact offer_sig _ s
@[simp] theorem completeCommand_hold (st : Status) (res : List Byte) (s : State) : (completeCommand st res s).hold = s.hold := by
  unfold completeCommand; split
  · rfl
  · dsimp only; rw [captureHeld_hold]; exact offer_hold _ s
@[simp] theorem completeCommand_img (st : Status) (res : List Byte) (s : State) : (completeCommand st res s).img = s.img := by
  unfold completeCommand; split
  · rfl
  · dsimp only; rw [captureHeld_img]; exact offer_img _ s
@[simp] theorem completeCommand_ports (st : Status) (res : List Byte) (s : State) : (completeCommand st res s).ports = s.ports := by
  unfold completeCommand; split
  · rfl
  · dsimp only; rw [captureHeld_ports]; exact offer_ports _ s
@[simp] theorem completeCommand_free (st : Status) (res : List Byte) (s : State) : (completeCommand st res s).free = s.free := by
  unfold completeCommand; split
  · rfl
  · dsimp only; rw [captureHeld_free]; exact offer_free _ s

end Sys2Proof.Machine
end

