-- ==== Sys2Proof/Laws/Ops.lean ====
section
/-! SUPPORT. One lemma for each shared operation that says all it can do: frames, reports, the end of a command, the reception of a
write. Proofs cite these and unfold none of the operations. -/

namespace Sys2Proof.Machine

open Sys2Proof

/-! ### Frames -/

theorem KeepsAllBut.refl (bs : List Block) (s : State) : KeepsAllBut bs s s := by intro b _; cases b <;> rfl

theorem sameAt_trans {b : Block} {s t u : State} (h : State.sameAt b s t) (h' : State.sameAt b t u) : State.sameAt b s u := by
  cases b <;> exact Eq.trans h' h

theorem KeepsAllBut.trans {bs : List Block} {s t u : State} (h : KeepsAllBut bs s t) (h' : KeepsAllBut bs t u) : KeepsAllBut bs s u :=
  fun b hb => sameAt_trans (h b hb) (h' b hb)

theorem KeepsAllBut.mono {bs cs : List Block} {s t : State} (h : KeepsAllBut bs s t) (hs : ∀ b ∈ bs, b ∈ cs) : KeepsAllBut cs s t :=
  fun b hb => h b fun hb' => hb (hs b hb')

/-! ### Reports -/

/-- What a report depends on. -/
structure SameReporting (s t : State) : Prop where
  cmd  : t.cmd = s.cmd
  own  : t.own = s.own
  win  : t.control = s.control
  time : t.now = s.now

theorem SameReporting.refl (s : State) : SameReporting s s := ⟨rfl, rfl, rfl, rfl⟩

@[simp] theorem request_control (w : OwnWrite) (s : State) : (request w s).control = s.control := rfl
@[simp] theorem request_now (w : OwnWrite) (s : State) : (request w s).now = s.now := rfl

theorem offer_control (r : Report) (s : State) : (offer r s).control = s.control := by simp [State.control]
theorem offer_now (r : Report) (s : State) : (offer r s).now = s.now := by simp [State.now]
theorem offerAll_control (rs : List Report) (s : State) : (offerAll rs s).control = s.control := by simp [State.control]
theorem offerAll_now (rs : List Report) (s : State) : (offerAll rs s).now = s.now := by simp [State.now]

theorem appendReport_parts (r : Report) {s t : State} (h : SameReporting s t) : SameReporting (appendReport r s) (appendReport r t) := by
  obtain ⟨hc, ho, hw, ht⟩ := h
  have hw' : t.win.slots[(0 : Fin 16)].base = s.win.slots[(0 : Fin 16)].base := hw
  refine ⟨?_, ?_, by simpa [State.control] using hw', by simpa [State.now] using ht⟩ <;>
    simp only [appendReport, hc, ht] <;> split <;>
    simp_all [requestReport, request, State.control]

theorem offerLost_parts {s t : State} (h : SameReporting s t) : SameReporting (offerLost s) (offerLost t) := by
  have h1 := appendReport_parts (.lost s.cmd.lost) h
  have e : (offerLost t) = if 0 < s.cmd.lost ∧ room s.cmd = true then
      { appendReport (.lost s.cmd.lost) t with cmd := { (appendReport (.lost s.cmd.lost) t).cmd with lost := 0 } } else t := by
    simp only [offerLost, h.cmd]
  have e' : (offerLost s) = if 0 < s.cmd.lost ∧ room s.cmd = true then
      { appendReport (.lost s.cmd.lost) s with cmd := { (appendReport (.lost s.cmd.lost) s).cmd with lost := 0 } } else s := rfl
  rw [e, e']
  split
  · exact ⟨by simp [h1.cmd], h1.own, h1.win, h1.time⟩
  · exact h

/-- A report's effect on the Command Unit and on the own writes depends on nothing else of the state. -/
theorem offer_parts (r : Report) {s t : State} (h : SameReporting s t) : SameReporting (offer r s) (offer r t) := by
  have h1 := offerLost_parts h
  simp only [offer, h1.cmd]
  split
  · exact appendReport_parts r h1
  · exact ⟨rfl, h1.own, h1.win, h1.time⟩

@[simp] theorem appendReport_executing (r : Report) (s : State) : (appendReport r s).cmd.executing = s.cmd.executing := by
  unfold appendReport; dsimp only; split <;> rfl
@[simp] theorem offerLost_executing (s : State) : (offerLost s).cmd.executing = s.cmd.executing := by
  unfold offerLost; dsimp only; split <;> simp
@[simp] theorem offer_executing (r : Report) (s : State) : (offer r s).cmd.executing = s.cmd.executing := by
  unfold offer; dsimp only; split <;> simp

@[simp] theorem appendReport_setExecuting (r : Report) (e : Executing) (s : State) :
    appendReport r (setExecuting e s) = setExecuting e (appendReport r s) := by
  by_cases h : s.cmd.waiting.isEmpty = true <;> simp only [appendReport, setExecuting, h, if_true] <;> rfl
theorem offerLost_setExecuting (e : Executing) (s : State) : offerLost (setExecuting e s) = setExecuting e (offerLost s) := by
  by_cases h : 0 < s.cmd.lost ∧ room s.cmd = true
  · simp only [offerLost, show (setExecuting e s).cmd.lost = s.cmd.lost from rfl, show room (setExecuting e s).cmd = room s.cmd from rfl,
      appendReport_setExecuting, if_pos h]
    rfl
  · simp only [offerLost, show (setExecuting e s).cmd.lost = s.cmd.lost from rfl, show room (setExecuting e s).cmd = room s.cmd from rfl,
      if_neg h]
/-- A report's effect does not depend on the command in execution, and leaves it as it is. -/
theorem offer_setExecuting (r : Report) (e : Executing) (s : State) : offer r (setExecuting e s) = setExecuting e (offer r s) := by
  have hr : room (setExecuting e (offerLost s)).cmd = room (offerLost s).cmd := rfl
  simp only [offer, offerLost_setExecuting, hr]
  by_cases h : room (offerLost s).cmd = true
  · simp only [if_pos h, appendReport_setExecuting]
  · simp only [if_neg h]; rfl

theorem offerAll_parts (rs : List Report) {s t : State} (h : SameReporting s t) : SameReporting (offerAll rs s) (offerAll rs t) := by
  induction rs generalizing s t with
  | nil => exact h
  | cons r rs ih => exact ih (offer_parts r h)

theorem offerAll_append (rs rs' : List Report) (s : State) : offerAll (rs ++ rs') s = offerAll rs' (offerAll rs s) :=
  List.foldl_append ..

@[simp] theorem offerAll_nil (s : State) : offerAll [] s = s := rfl
theorem offerAll_one (r : Report) (s : State) : offerAll [r] s = offer r s := rfl

theorem offerAll_keeps (rs : List Report) (s : State) : KeepsAllBut reportParts s (offerAll rs s) := by
  intro b hb
  cases b <;> first | exact absurd (by decide) hb | simp [State.sameAt]

/-- Reports offered in a state that agrees with `s` in what reports depend on, and outside `bs`. -/
theorem Reports.intro {bs : List Block} {s u : State} (rs : List Report) (h : SameReporting s u) (hk : KeepsAllBut bs s u) :
    Reports bs rs s (offerAll rs u) :=
  have h' := offerAll_parts rs h
  ⟨h'.cmd, h'.own,
    (hk.mono fun _ hb => List.mem_append_left _ hb).trans ((offerAll_keeps rs u).mono fun _ hb => List.mem_append_right _ hb)⟩

/-! ### The end of a command -/

/-- What the end of a command depends on besides. -/
theorem captureHeld_parts {s t : State} (hc : t.cmd = s.cmd) (hp : t.path = s.path) :
    (captureHeld t).cmd = (captureHeld s).cmd ∧ (captureHeld t).path = (captureHeld s).path := by
  simp only [captureHeld, hc, hp]
  split
  · exact ⟨hc, hp⟩
  · split
    · split <;> simp_all [release, modWrite, capture]
    · exact ⟨hc, hp⟩

/-- The end of a command depends on the Command Unit, the own writes, the path, the control window and uptime. -/
theorem completeCommand_parts (status : Status) (result : List Byte) {s t : State} (h : SameReporting s t) (hp : t.path = s.path) :
    (completeCommand status result t).cmd = (completeCommand status result s).cmd ∧
      (completeCommand status result t).own = (completeCommand status result s).own ∧
      (completeCommand status result t).path = (completeCommand status result s).path := by
  unfold completeCommand
  rw [h.cmd]
  cases hq : s.cmd.queue with
  | nil => exact ⟨h.cmd, h.own, hp⟩
  | cons c rest =>
    have h1 := offer_parts (.completion status (leNat (slice c 2 2)) (byteAt c 0) (if status = .done then result else [])) h
    have h2 := captureHeld_parts
      (s := { (offer (.completion status (leNat (slice c 2 2)) (byteAt c 0) (if status = .done then result else [])) s) with
        cmd := { (offer (.completion status (leNat (slice c 2 2)) (byteAt c 0) (if status = .done then result else [])) s).cmd with
          queue := (offer (.completion status (leNat (slice c 2 2)) (byteAt c 0) (if status = .done then result else [])) s).cmd.queue.tail,
          executing := .idle } })
      (t := { (offer (.completion status (leNat (slice c 2 2)) (byteAt c 0) (if status = .done then result else [])) t) with
        cmd := { (offer (.completion status (leNat (slice c 2 2)) (byteAt c 0) (if status = .done then result else [])) t).cmd with
          queue := (offer (.completion status (leNat (slice c 2 2)) (byteAt c 0) (if status = .done then result else [])) t).cmd.queue.tail,
          executing := .idle } })
      (by rw [h1.cmd]) (by simpa using hp)
    refine ⟨h2.1, ?_, h2.2⟩
    rw [captureHeld_own, captureHeld_own]; exact h1.own

theorem completeCommand_keeps (status : Status) (result : List Byte) (s : State) :
    KeepsAllBut commandParts s (completeCommand status result s) := by
  intro b hb
  cases b <;> first | exact absurd (by decide) hb | simp [State.sameAt]

/-- A command whose owner has left `u`, its reports offered, and whose COMPLETION is then produced. -/
theorem EndsWith.intro {bs : List Block} {s u : State} (rs : List Report) (status : Status) (result : List Byte) (h : SameReporting s u)
    (hp : u.path = s.path) (hk : KeepsAllBut bs s u) :
    EndsWith bs rs status result s (completeCommand status result (offerAll rs u)) := by
  have h' := offerAll_parts rs h
  have h2 := completeCommand_parts status result h' (by simpa using hp)
  refine ⟨h2, ?_⟩
  refine (hk.mono fun _ hb => List.mem_append_left _ hb).trans ?_
  refine ((offerAll_keeps rs u).mono ?_).trans ((completeCommand_keeps status result _).mono fun _ hb => List.mem_append_right _ hb)
  intro b hb
  exact List.mem_append_right _ (by revert hb; cases b <;> decide)

theorem TurnedAway.intro (status : Status) (s : State) : TurnedAway status s (completeCommand status [] s) :=
  EndsWith.intro [] status [] (SameReporting.refl s) rfl (KeepsAllBut.refl [] s)

/-! ### Commands -/

/-- A command at the front with flags 0, the Command Unit free, is handed to its owner with its parameters. -/
theorem runCommand_commanded {s : State} {code : Nat} {p : List Byte} (h : commanded s code p = true)
    (owner : List Byte → State → State) : runCommand code owner s = owner p s := by
  simp only [commanded, Bool.and_eq_true, decide_eq_true_eq, Bool.not_eq_true'] at h
  obtain ⟨⟨he, hv⟩, hq⟩ := h
  cases hc : s.cmd.queue with
  | nil => simp [hc] at hq
  | cons c rest =>
    simp only [hc, Bool.and_eq_true, decide_eq_true_eq, beq_iff_eq] at hq
    simp [runCommand, nextCommand, visiting, hv, he, hc, hq.1.1, hq.1.2, hq.2]

/-- While a visit is due no command is taken. -/
theorem runCommand_visiting {s : State} (h : s.time.visitDue = true) (code : Nat) (owner : List Byte → State → State) :
    runCommand code owner s = s := by simp [runCommand, visiting, h]

/-- A command whose owner answers at once. -/
theorem atOnce_eq {f : List Byte → State → Done} {p : List Byte} {s : State} {d : Done} (h : f p s = d) :
    atOnce f p s = completeCommand d.status d.result d.state := by simp only [atOnce, h]

/-! ### Operands -/

theorem indexOf_val {n : Nat} (k : Fin n) : indexOf n k.val = some k := by simp [indexOf]
theorem indexOf_eq {n m : Nat} {k : Fin n} (h : m = k.val) : indexOf n m = some k := by subst h; exact indexOf_val k
theorem indexOf_none {n m : Nat} (h : n ≤ m) : indexOf n m = none := by simp [indexOf, h]
theorem flagOf_none {m : Nat} (h : 2 ≤ m) : flagOf m = none := by simp only [flagOf]; split <;> [omega; (split <;> [omega; rfl])]
theorem inRange_iff (base size addr : Nat) : inRange base size addr = true ↔ base ≤ addr ∧ addr < base + size := by simp [inRange]

/-! ### Receptions -/

theorem awaited_receives {s : State} {w : WriteTx} {d : List Lane} (h : Receives s w d) : awaited w.tag d s = some w := by
  obtain ⟨h1, h2, h3⟩ := h
  simp [awaited, h1, h2, h3]

theorem Receives.notRefused {s : State} {w : WriteTx} {d : List Lane} (h : Receives s w d) : w.isRefused = false := by
  simp [WriteTx.isRefused, h.2.1]

theorem inSector_dram {a : Nat} (h : a < 0x1C000000) : inSector a = false := by
  rw [Bool.eq_false_iff]
  intro h'
  rw [inSector, inRange_iff] at h'
  simp only [Config.sectorBase] at h'
  omega

theorem inStaging_dram {img : ImageUnit} {a : Nat} (h : a < 0x1C000000) : inStaging img a = false := by
  rw [Bool.eq_false_iff]
  intro h'
  simp only [inStaging, Bool.and_eq_true, Option.any_eq_true, inRange_iff] at h'
  obtain ⟨-, k, -, h1, -⟩ := h'
  cases k <;> simp [Bank.base, Config.bankABase, Config.bankBBase] at h1 <;> omega

/-- The reception of a write in a window in DRAM is of the window's kind. -/
theorem receptionOf_window {s : State} {w : WriteTx} {c : WinCopy} {d : List Lane} {kind : WindowKind} (h : Receives s w d)
    (hw : InWindow w c kind) : receptionOf s.img w d = windowReception c w.txn d := by
  simp [receptionOf, h.notRefused, inSector_dram hw.2.2, inStaging_dram hw.2.2, hw.1]

/-- A reception of a kind that the event selects. -/
theorem receive_eq {s : State} {w : WriteTx} {d : List Lane} (h : Receives s w d) (wanted : Reception → Bool)
    (hk : wanted (receptionOf s.img w d) = true) : receive wanted w.tag d s = receiveAs (receptionOf s.img w d) w d s := by
  simp [receive, awaited_receives h, hk]

/-- Settling a write changes nothing of it but whether it is listed and whether a place is kept for it. -/
theorem settleWrite_eq (ahead : List WriteTx) (w : WriteTx) :
    settleWrite ahead w = { w with listed := (settleWrite ahead w).listed, reserved := (settleWrite ahead w).reserved } := by
  simp only [settleWrite]; split <;> (try split) <;> rfl

@[simp] theorem settleWrite_tag (ahead : List WriteTx) (w : WriteTx) : (settleWrite ahead w).tag = w.tag := by rw [settleWrite_eq]
@[simp] theorem settleWrite_txn (ahead : List WriteTx) (w : WriteTx) : (settleWrite ahead w).txn = w.txn := by rw [settleWrite_eq]
@[simp] theorem settleWrite_win (ahead : List WriteTx) (w : WriteTx) : (settleWrite ahead w).win = w.win := by rw [settleWrite_eq]
@[simp] theorem settleWrite_data (ahead : List WriteTx) (w : WriteTx) : (settleWrite ahead w).data = w.data := by rw [settleWrite_eq]
@[simp] theorem settleWrite_stage (ahead : List WriteTx) (w : WriteTx) : (settleWrite ahead w).stage = w.stage := by rw [settleWrite_eq]

@[simp] theorem settleFrom_length (older ws : List WriteTx) : (settleFrom older ws).length = ws.length := by
  induction ws generalizing older with
  | nil => rfl
  | cons w ws ih => simp [settleFrom, ih]

@[simp] theorem settleFrom_tags (older ws : List WriteTx) : (settleFrom older ws).map WriteTx.tag = ws.map WriteTx.tag := by
  induction ws generalizing older with
  | nil => rfl
  | cons w ws ih => simp [settleFrom, ih]

/-- A settled write follows from itself and from the settled writes before it. -/
theorem settleFrom_append (older ws vs : List WriteTx) :
    settleFrom older (ws ++ vs) = settleFrom older ws ++ settleFrom ((settleFrom older ws).reverse ++ older) vs := by
  induction ws generalizing older with
  | nil => rfl
  | cons w ws ih => simp [settleFrom, ih]

/-- A write that passes changes only the path, and there its own data and stage, the ready order and the write lists. -/
theorem passWrite_spec (tag : Nat) (d : List Lane) (s : State) : Passes tag d s (passWrite tag d s) ∧ KeepsAllBut [.path] s (passWrite tag d s) := by
  refine ⟨?_, fun b hb => by cases b <;> first | rfl | simp at hb⟩
  simp only [Passes, passWrite, settleLists, release, storeData, modWrite, List.map_map]
  congr 2
  apply List.map_congr_left
  intro w _
  simp only [Function.comp]
  split <;> rename_i h <;> simp [h]

/-- A write held for the Descriptor Rewriter changes only its own data and stage, the write lists and the decision order. -/
theorem holdForRewriter_spec (tag : Nat) (d : List Lane) (s : State) :
    HeldWith tag d s (holdForRewriter tag d s) ∧ (holdForRewriter tag d s).rew = { s.rew with order := s.rew.order ++ [tag] } ∧
      KeepsAllBut [.path, .rew] s (holdForRewriter tag d s) := by
  refine ⟨?_, rfl, fun b hb => by cases b <;> first | rfl | simp at hb⟩
  simp only [HeldWith, holdForRewriter, hold, settleLists, storeData, modWrite, List.map_map]
  congr 2
  apply List.map_congr_left
  intro w _
  simp only [Function.comp]
  split <;> rename_i h <;> simp [h]

theorem complete_iff (c : WinCopy) (n : Nat) (t : TxnAddr) (d : List Lane) :
    complete c.record.base c.record.size n t d = true ↔ CompleteFor c n t d := by
  simp [complete, shapeComplete, strobesSet, CompleteFor, and_assoc]

/-! ### Stations -/

theorem gateChanges_eq (cause : GateCause) (before after : Vector (Option Station) 128) :
    gateChanges cause before after = gateReports cause before after := by
  simp only [gateChanges, gateReports, stationList]
  congr 1
  funext i
  cases ha : after[i] <;> cases hb : before[i] <;> simp

theorem allowanceOf_eq (active : Vector SchedProfile 16) (st : Station) : allowanceOf active st = dayAllowance active st.sched := by
  simp only [allowanceOf, profileOf, dayAllowance]
  cases st.sched <;> rfl

theorem modStation_at (i j : Fin 128) (f : Station → Station) (s : State) :
    (modStation i f s).sta.stations[j] = if j = i then (s.sta.stations[i]).map f else s.sta.stations[j] := vmod_at ..

theorem mapStations_at (f : Station → Station) (s : State) (i : Fin 128) :
    (mapStations f s).sta.stations[i] = (s.sta.stations[i]).map f := vmap_at ..

/-- Window evaluation writes one reason and two flags. -/
theorem evaluate_frame (clock : Clock) (active : Vector SchedProfile 16) (st : Station) :
    ∃ w n f, evaluate clock active st = st.withWindow w n f := by
  unfold evaluate
  split
  · exact ⟨_, _, _, rfl⟩
  · split
    · split
      · exact ⟨_, _, _, rfl⟩
      · split <;> exact ⟨_, _, _, rfl⟩
    · exact ⟨_, _, _, rfl⟩

/-- The same, as a record. -/
theorem evaluate_eq (clock : Clock) (active : Vector SchedProfile 16) (st : Station) :
    evaluate clock active st = { st with
      reasons := { st.reasons with window := (evaluate clock active st).reasons.window },
      noUrgent := (evaluate clock active st).noUrgent, free := (evaluate clock active st).free } := by
  obtain ⟨w, n, f, h⟩ := evaluate_frame clock active st
  rw [h]; rfl

theorem covers_iff (w : SchedWindow) (c : Clock) :
    w.covers c.day c.minuteOfDay = true ↔ w.days.getLsbD (c.minute / 1440) = true ∧ w.start ≤ c.minute % 1440 ∧ c.minute % 1440 < w.stop := by
  simp only [SchedWindow.covers, Bool.and_eq_true, decide_eq_true_eq, and_assoc]
  rfl

/-- Window evaluation gives the result that R47 and R48 state. -/
theorem evaluate_spec (clock : Clock) (active : Vector SchedProfile 16) (st : Station) :
    WindowEvaluated clock active (evaluate clock active st) := by
  have hsched : (evaluate clock active st).sched = st.sched := by rw [evaluate_eq]
  refine ⟨fun h => ?_, fun k hk => ?_⟩
  · rw [hsched] at h
    simp [evaluate, profileOf, h, Station.withWindow]
  · rw [hsched] at hk
    refine ⟨fun h => ?_, fun h hno => ?_, fun h j hj hmin => ?_⟩
    · simp [evaluate, profileOf, hk, Station.withWindow, h]
    · have hn : vfind (fun w : SchedWindow => w.covers clock.day clock.minuteOfDay) active[k].windows = none := by
        rw [vfind_none]; intro i; rw [Bool.eq_false_iff]; exact fun h' => hno i ((covers_iff _ _).1 h')
      simp only [evaluate, profileOf, hk, Option.map_some, h, if_true, hn]
      exact ⟨rfl, rfl, rfl⟩
    · have hf : vfind (fun w : SchedWindow => w.covers clock.day clock.minuteOfDay) active[k].windows = some j := by
        cases hv : vfind (fun w : SchedWindow => w.covers clock.day clock.minuteOfDay) active[k].windows with
        | none => rw [vfind_none] at hv; have := hv j; rw [(covers_iff _ _).2 hj] at this; exact absurd this (by decide)
        | some j' =>
          have h1 : j' ≤ j := vfind_least hv ((covers_iff _ _).2 hj)
          rcases lt_or_eq_of_le h1 with h2 | h2
          · exact absurd ((covers_iff _ _).1 (vfind_some hv)) (hmin j' h2)
          · rw [h2]
      simp only [evaluate, profileOf, hk, Option.map_some, h, if_true, hf]
      split <;> rename_i ha <;> refine ⟨?_, ?_, ?_⟩ <;> rw [ha] <;> rfl

/-! ### Chunks, the visit and the release -/

/-- All n chunks are COMPLETE. -/
theorem allComplete_iff (g : Staging) : allComplete g = true ↔ ChunksComplete g := by
  simp only [allComplete, ChunksComplete, List.all_eq_true, decide_eq_true_eq]
  constructor
  · intro h c hc
    refine h _ (List.mem_take_iff_getElem.2 ⟨c.val, ?_, ?_⟩)
    · simp [hc]
    · simp
  · intro h k hk
    obtain ⟨j, hj, rfl⟩ := List.mem_take_iff_getElem.1 hk
    have hj' : j < g.chunkCount ∧ j < 256 := by simpa using hj
    have := h ⟨j, hj'.2⟩ hj'.1
    simpa using this

/-- A station is moved by the visit in the transition of a state exactly when it is in that state with its deadline passed. -/
theorem overdueIn_iff {state : Roam} (hs : state = .candidate ∨ state = .holdoff ∨ state = .handoff) (s : State) :
    overdueIn state s = true ↔ ∃ (i : Fin 128) (st : Station), s.sta.stations[i] = some st ∧ st.state = state ∧ st.deadline < s.time.secs := by
  simp only [overdueIn, List.any_eq_true, Option.any_eq_true, Station.overdue, State.now, Bool.and_eq_true, Bool.or_eq_true, beq_iff_eq]
  constructor
  · rintro ⟨o, ho, st, rfl, ⟨-, hd⟩, hst⟩
    obtain ⟨j, hj, he⟩ := List.mem_iff_getElem.1 ho
    exact ⟨⟨j, by simpa using hj⟩, st, by simpa using he, hst, of_decide_eq_true hd⟩
  · rintro ⟨i, st, he, hst, hd⟩
    refine ⟨some st, ?_, st, rfl, ⟨?_, decide_eq_true hd⟩, hst⟩
    · rw [← he]; simp
    · rcases hs with rfl | rfl | rfl <;> simp [hst]

/-- The flows of a station are removed and counted, and no other (R77). -/
theorem removeStationFlows_spec (i : Fin 128) (s : State) : FlowsOfRemoved i s { s with cls := removeStationFlows i s.cls } := by
  refine ⟨fun n e he => ?_, fun n hn => ?_, ?_⟩
  · show (vmap _ s.cls.flows)[n] = _
    rw [vmap_at, he]
    by_cases h : e.station = some i <;> simp [h]
  · show (vmap _ s.cls.flows)[n] = _
    rw [vmap_at, hn]; rfl
  · simp [removeStationFlows, removeFlows, satAdd, vcount, count32]

theorem releasedStation_leftBy (outcome : HandoffOutcome) (deadline : Nat) (st : Station) :
    LeftBy outcome deadline st (releasedStation outcome deadline st) := by
  cases outcome <;> simp [LeftBy, releasedStation]

/-- The command that took a release goes on in the Command Unit and the path alone. -/
theorem resumeCommand_keeps (k : Fin 16) (s : State) : KeepsAllBut [.cmd, .own, .path] s (resumeCommand k s) := by
  have h : KeepsAllBut [.cmd, .own, .path] s (completeCommand .done [] s) := (completeCommand_keeps .done [] s).mono (by decide)
  unfold resumeCommand
  cases s.cmd.executing <;> dsimp only <;> (try split) <;>
    first | exact .refl _ _ | exact h | (intro b hb; cases b <;> first | rfl | simp at hb)

theorem finishDump_tables (k : Fin 16) (d : Dumping) (s : State) :
    (finishDump k d s).sta = s.sta ∧ (finishDump k d s).hold = { s.hold with slots := vput s.hold.slots k .free } := by
  unfold finishDump
  rw [resumeCommand_keeps _ _ .sta (by decide), resumeCommand_keeps _ _ .hold (by decide)]
  simp [putSlot]
theorem requestDump_keeps (k : Fin 16) (refs : List (HoldRef × Disposition)) (s : State) : KeepsAllBut [.own] s (requestDump k refs s) := by
  intro b hb
  unfold requestDump
  split
  · cases b <;> rfl
  · split <;> (cases b <;> first | rfl | simp at hb)

theorem countRelease_slots (outcome : HandoffOutcome) (h : HoldUnit) (v : Vector HandoffSlot 16) :
    countRelease outcome { h with slots := v } = { countRelease outcome h with slots := v } := by cases outcome <;> rfl

/-- What a release does to the Station Table and the Hold Unit, with references or without (R135, R136, R141). -/
theorem takeRelease_tables (outcome : HandoffOutcome) (i : Fin 128) (st : Station) (k : Fin 16) (o : Occupied) (s : State) :
    (takeRelease outcome i st k o s).sta =
        (modStation i (releasedStation outcome ((s.time.secs + (s.sig.profiles[st.roam]).holdoff) % 4294967296)) s).sta ∧
      ∃ h, (takeRelease outcome i st k o s).hold =
        { countRelease outcome { s.hold with free := s.hold.free + o.list.length } with slots := vput s.hold.slots k h } := by
  unfold takeRelease
  dsimp only
  split
  · rw [(finishDump_tables _ _ _).1, (finishDump_tables _ _ _).2, requestDump_keeps _ _ _ .sta (by decide),
      requestDump_keeps _ _ _ .hold (by decide)]
    refine ⟨rfl, .free, ?_⟩
    cases outcome <;> simp [modStation, countRelease, putSlot, vput]
  · rw [requestDump_keeps _ _ _ .sta (by decide), requestDump_keeps _ _ _ .hold (by decide)]
    exact ⟨rfl, _, countRelease_slots outcome { s.hold with free := s.hold.free + o.list.length } _⟩

/-- A release does to the station, the pool and the counts what R135, R136 and R141 say. -/
theorem takeRelease_released {outcome : HandoffOutcome} {i : Fin 128} {st : Station} {k : Fin 16} {o : Occupied} {s : State}
    (hst : s.sta.stations[i] = some st) : Released outcome i st k o s (takeRelease outcome i st k o s) := by
  obtain ⟨hs, h, hh⟩ := takeRelease_tables outcome i st k o s
  refine ⟨⟨_, ?_, releasedStation_leftBy ..⟩, fun j hj => ?_, ?_, ?_, fun j hj => ?_, ?_, ?_, ?_, ?_, ?_, ?_⟩
  · rw [hs, modStation_at, if_pos rfl, hst]; rfl
  · rw [hs, modStation_at, if_neg hj]
  · rw [hs]; rfl
  · rw [hs]; rfl
  · rw [hh]; show (vput _ _ _)[j] = _; rw [vput_at, if_neg hj]
  all_goals rw [hh]; cases outcome <;> simp [countRelease, satInc, count32]

theorem finishDump_keeps (k : Fin 16) (d : Dumping) (s : State) :
    KeepsAllBut [.hold, .own, .cmd, .path] s (finishDump k d s) := by
  intro b hb
  unfold finishDump
  refine sameAt_trans ?_ ((resumeCommand_keeps k _).mono (cs := [.hold, .own, .cmd, .path]) (by decide) b hb)
  exact sameAt_trans ((offerAll_keeps [_] s).mono (cs := [.hold, .own, .cmd, .path]) (by decide) b hb)
    (by cases b <;> first | rfl | simp at hb)

/-- The parts that a release touches. -/
theorem takeRelease_keeps (outcome : HandoffOutcome) (i : Fin 128) (st : Station) (k : Fin 16) (o : Occupied) (s : State) :
    KeepsAllBut [.sta, .hold, .own, .cmd, .path] s (takeRelease outcome i st k o s) := by
  intro b hb
  have hd (refs : List (HoldRef × Disposition)) (u : State) : State.sameAt b u (requestDump k refs u) :=
    (requestDump_keeps k refs u).mono (cs := [.sta, .hold, .own, .cmd, .path]) (by decide) b hb
  unfold takeRelease
  dsimp only
  split
  · refine sameAt_trans (sameAt_trans ?_ (hd _ _)) ((finishDump_keeps k _ _).mono (by decide) b hb)
    cases b <;> first | rfl | simp at hb
  · refine sameAt_trans ?_ (hd _ _)
    cases b <;> first | rfl | simp at hb

/-- The parts that the visit of a station touches. -/
theorem visitStation_keeps (i : Fin 128) (s : State) : KeepsAllBut [.sta, .hold, .own, .cmd, .path] s (visitStation i s) := by
  intro b hb
  unfold visitStation
  split
  · exact KeepsAllBut.refl _ _ b hb
  · split
    · split
      · exact sameAt_trans (by cases b <;> first | rfl | simp at hb) ((offerAll_keeps [_] _).mono (by decide) b hb)
      · cases b <;> first | rfl | simp at hb
      · split
        · exact KeepsAllBut.refl _ _ b hb
        · exact takeRelease_keeps .timedOut _ _ _ _ _ b hb
      · exact KeepsAllBut.refl _ _ b hb
      · exact KeepsAllBut.refl _ _ b hb
    · exact KeepsAllBut.refl _ _ b hb

end Sys2Proof.Machine
end

