-- ==== Sys2Proof/WellFormed.lean ====
section
/-! DEFINITION. Which operands an event of the AXI ports or of the board can carry at all. The machine's meanings are total and do
not ask for it; statements that need it name it as a premise. -/

namespace Sys2Proof

/-- A transaction of the 64-bit link: at least one byte, at most 8 bytes a beat, and inside one 4 KiB page ("AXI bursts never
cross a 4 KiB boundary", section 1.1 of 01). -/
def TxnAddr.wellFormed (a : TxnAddr) : Bool :=
  decide (1 ≤ a.len) && decide (a.size ≤ 3) && decide (a.addr.toNat % 4096 + a.len ≤ 4096)

/-- Write data: at least one byte and at most one 4 KiB page. -/
def lanesWellFormed (d : List Lane) : Bool :=
  decide (1 ≤ d.length) && decide (d.length ≤ 4096)

/-- A read return of `n` bytes with at least one beat. -/
def returnWellFormed (n : Nat) (resps : List Resp) (data : List Byte) : Bool :=
  decide (data.length = n) && !resps.isEmpty

/-- The operands of a downstream response. -/
def DownResp.wellFormed : DownResp → Bool
  | .write _ => true
  | .read resps data => !resps.isEmpty && decide (1 ≤ data.length) && decide (data.length ≤ 4096)

/-- Whether the operands of an event can occur on the pins. -/
def Instr.wellFormed : Instr → Bool
  | .upstreamWriteArrival a => a.wellFormed
  | .upstreamReadArrival a => a.wellFormed
  | .upstreamWriteReceived _ d => lanesWellFormed d
  | .frameStartWrite _ d => lanesWellFormed d
  | .peerRecord _ d => lanesWellFormed d
  | .commandCapture _ d => lanesWellFormed d
  | .tailWordWrite _ d => lanesWellFormed d
  | .stagingWriteTracked _ d => lanesWellFormed d
  | .bootRecordReadComplete resps data => returnWellFormed Config.recordSize resps data
  | .sweepReadReturn _ resps data => returnWellFormed Config.sweepRead resps data
  | .downstreamResponse _ r => r.wellFormed
  | .signalSample i => decide (i < 128)
  | .powerOnReset | .warmReset | .resetRelease _ _ | .abandonedResponse _ | .bootRecordReadIssue => true
  | .bootRecordCheck | .descriptorDisposition | .statusRecordDecision | .writeSideGrant | .readSideGrant => true
  | .refusedWriteResponse _ | .reportRecordResponse _ _ | .headWordResponse _ _ | .dumpWriteResponse _ _ => true
  | .statsWriteResponse _ _ | .sweepStart | .uptimeSecond | .flowAging | .candidateExpired | .holdoffExpiry => true
  | .handoffTimeout | .minuteBoundary | .lineEdge | .pacingPeriodBoundary | .unknownCommand | .windowSet => true
  | .windowClear | .descProfileSet | .statusProfileSet | .stationSet | .stationClear | .ruleSet | .ruleClear => true
  | .flowPin | .flowUnpin | .flowPromote | .flowFlush | .pacingSet | .capSet | .timeSet | .scheduleStage => true
  | .allowanceStage | .scheduleCommit | .scheduleEvaluate | .gateSet | .grant | .lineSet | .nodeSet => true
  | .roamProfileSet | .handoffBegin | .handoffDecline | .handoffEnd | .stageBegin | .stageCancel => true
  | .stageVerify | .activationSet | .stats | .tick _ => true

end Sys2Proof
end

