-- ==== Sys2Proof/Tests/Slice0.lean ====
section
/-! SUPPORT. Tests: the ill-formed terms that WellFormed refuses, values that the spec itself states, and a witness for the hypotheses of
every obligation. -/

namespace Sys2Proof.Tests

open Sys2Proof Sys2Proof.Machine

/-! ### WellFormed refuses -/

/-- An address phase. -/
def at_ (addr len : Nat) : TxnAddr := ⟨5, BitVec.ofNat 32 addr, len, 3, .incr⟩

theorem test_wf_accepts : (Instr.upstreamWriteArrival (at_ 0x1000 4096)).wellFormed = true := by decide
theorem test_wf_write_len_zero : (Instr.upstreamWriteArrival (at_ 0x1000 0)).wellFormed = false := by decide
theorem test_wf_write_size : (Instr.upstreamWriteArrival { at_ 0x1000 8 with size := 4 }).wellFormed = false := by decide
theorem test_wf_read_page : (Instr.upstreamReadArrival (at_ 0x1FFC 8)).wellFormed = false := by decide
theorem test_wf_lanes_empty : (Instr.upstreamWriteReceived 0 []).wellFormed = false := by decide
theorem test_wf_lanes_long : lanesWellFormed (List.replicate 4097 ⟨0, true⟩) = false := by decide +kernel
theorem test_wf_frame_empty : (Instr.frameStartWrite 0 []).wellFormed = false := by decide
theorem test_wf_peer_empty : (Instr.peerRecord 0 []).wellFormed = false := by decide
theorem test_wf_command_empty : (Instr.commandCapture 0 []).wellFormed = false := by decide
theorem test_wf_tail_empty : (Instr.tailWordWrite 0 []).wellFormed = false := by decide
theorem test_wf_staging_empty : (Instr.stagingWriteTracked 0 []).wellFormed = false := by decide
theorem test_wf_boot_short : (Instr.bootRecordReadComplete [.okay] (List.replicate 31 0)).wellFormed = false := by decide
theorem test_wf_boot_no_beat : (Instr.bootRecordReadComplete [] (List.replicate 32 0)).wellFormed = false := by decide
theorem test_wf_sweep_short : (Instr.sweepReadReturn 0 [.okay] (List.replicate 127 0)).wellFormed = false := by decide +kernel
theorem test_wf_sample_index : (Instr.signalSample 128).wellFormed = false := by decide
theorem test_wf_read_no_data : (Instr.downstreamResponse 0 (.read [.okay] [])).wellFormed = false := by decide
theorem test_wf_read_no_beat : (Instr.downstreamResponse 0 (.read [] [0])).wellFormed = false := by decide

/-! ### Values the spec states -/

/-- R144: the CRC of the nine ASCII bytes "123456789". -/
theorem test_crc_check_value : crc32 [0x31, 0x32, 0x33, 0x34, 0x35, 0x36, 0x37, 0x38, 0x39] = 0xCBF43926#32 := by decide +kernel

/-- Every byte of a write with its strobe set. -/
def lanes (bs : List Byte) : List Lane := bs.map fun b => ⟨b, true⟩

/-- The first 42 bytes of the tagged frame of section 2.2's worked example. -/
def frameA : List Byte :=
  [0x02, 0x5A, 0x10, 0x6C, 0x33, 0xE1, 0, 0, 0, 0, 0, 0, 0x81, 0x00, 0, 0, 0x08, 0x00, 0x45, 0xB8, 0, 0, 0, 0, 0, 0, 0, 17, 0, 0,
   0xC0, 0xA8, 0x01, 0x01, 0xC0, 0xA8, 0x01, 0x25, 0x0C, 0x02, 0xC7, 0x38]

/-- Table 2.3. -/
theorem test_table_2_3 : parseFrame 0x04001840 9 frameA =
    { key := 0x04001840, dst := 0x025A106C33E1#48, kind := .ipv4, proto := some 17, srcFold := some 0xC0A80101#32,
      dstFold := some 0xC0A80125#32, dscp := some 46#6, srcPort := some 3074#16, dstPort := some 51000#16, uptime := 9 } := by decide

/-- The second frame of that example, cut at 48 bytes: the destination fold and both ports are absent. -/
theorem test_ipv6_cut :
    let r := parseFrame 0x04002840 0 (List.replicate 12 1 ++ [0x86, 0xDD] ++ List.replicate 6 0 ++ [6] ++ List.replicate 27 0)
    r.kind = .ipv6 ∧ r.proto = some 6 ∧ r.srcFold.isSome = true ∧ r.dstFold = none ∧ r.srcPort = none ∧ r.dstPort = none := by decide

/-- Table 7.2, k = 4, every row that is held. -/
theorem test_table_7_2 :
    nextEstimate (some (-1000)) (-63) 4 = -1001 ∧ nextEstimate (some (-1000)) (-62) 4 = -999 ∧ nextEstimate (some (-1000)) (-60) 4 = -998 ∧
      nextEstimate (some (-1590)) (clampSample (-110)) 4 = -1591 ∧ nextEstimate (some (-330)) (-20) 4 = -329 := by decide

/-! ### Small states -/

/-- The part in operation with both pins released and the upstream port open. -/
def running : State := { State.reset with pins := ⟨false, false, 0⟩, boot := .opened }

/-- A station with nothing set. -/
def plain (mac : Mac) : Station :=
  { mac := mac, sched := none, roam := 0, reasons := Reasons.none, noUrgent := false, free := false, used := 0, extra := 0,
    active := false, lowSent := false, est := none, samples := 0, dwell := 0, peer := none, state := .settled, deadline := 0,
    away := false, lastUrgent := none, slot := none, forwarded := 0, discarded := 0, parked := 0, overflow := 0 }

/-- The MAC of the worked examples. -/
def mac4 : Mac := 0x025A106C33E1#48

/-- A state with station 4 installed. -/
def having (st : Station) : State := putStation 4 (some st) running

/-- An uptime. -/
def timed (n : Nat) (s : State) : State := { s with time := { s.time with secs := n } }

/-- A state whose oldest command has these bytes, with flags 0 and tag 0x1234. -/
def ordered (code : Byte) (p : List Byte) (s : State) : State :=
  { s with cmd := { s.cmd with queue := [code :: 0 :: 0x34 :: 0x12 :: p] } }

/-- A state with one write inside the part. -/
def carrying (w : WriteTx) (s : State) : State := { s with path := { s.path with writes := [w], nextTag := w.tag + 1 } }

/-- A write of tag 3. -/
def write3 (addr len : Nat) (win : Option WinCopy) : WriteTx :=
  { tag := 3, txn := at_ addr len, win := win, listed := true, reserved := false, data := [], stage := .arriving }

/-- A copy of a window at 0x04000000 in slot 6. -/
def copy6 (kind : WindowKind) (layout : Layout) : WinCopy :=
  { slot := 6, layout := layout,
    record := { WindowRec.off with kind := kind, base := 0x04000000, size := 0x10000, stride := 2048, headroom := 64,
                                   queues := ⟨7, 3, 1, 15⟩ } }

/-- A descriptor profile: address at 0, length at 4, queue field in byte 6 bits 0..3, owner byte 7 bit 7, discard byte 7 bit 0. -/
def desc16 : DescProfile := ⟨true, 16, 0, 4, 6, 0, ⟨7, 7, true⟩, ⟨7, 0, true⟩⟩

/-- A status profile: MAC at 0, signal at 6, valid byte 7 bit 0, drop byte 7 bit 1. -/
def status16 : StatusProfile := ⟨true, 16, 0, 6, ⟨7, 0, true⟩, ⟨7, 1, true⟩⟩

/-- The copy of the control window. -/
def copy0 : WinCopy := { slot := 0, layout := .plain, record := WindowRec.control 0 }

/-- A sixteen-byte descriptor for the buffer at 0x04001840 with length 180 and its owner flag set. -/
def descBytes : List Byte := [0x40, 0x18, 0x00, 0x04, 180, 0, 0, 0x80, 0, 0, 0, 0, 0, 0, 0, 0]

/-- A status record of station 4 with signal -60 dBm and its valid flag set. -/
def statusBytes : List Byte := [0x02, 0x5A, 0x10, 0x6C, 0x33, 0xE1, 0xC4, 1, 0, 0, 0, 0, 0, 0, 0, 0]

/-- The commands' effects can be read off a field: what a test looks at. -/
def after (e : Instr) (s : State) (look : State → Bool) : Bool :=
  match exec e s with
  | .next t => look t
  | .fault _ => false
  | .refused _ => false

/-! ### One step of an event -/

/-- Table 10.2: with H = 9 and T = 10 the ring is full, and an offered report is lost. -/
theorem test_ring_full :
    let s := { running with cmd := { running.cmd with head := 9, tail := 10 } }
    freeSpace s.cmd = 0 ∧ (offerAll [.commitApplied 1, .commitApplied 2, .commitApplied 4] s).cmd.lost = 3 := by decide

/-- Table 10.2: the host writes tail 40, and the LOST record with count 3 waits. -/
theorem test_tail_40 :
    let s := { running with cmd := { running.cmd with head := 9, tail := 10, lost := 3 } }
    (snoopTail 40 s).cmd.tail = 40 ∧ (snoopTail 40 s).cmd.lost = 0 ∧ (snoopTail 40 s).cmd.waiting = [⟨.lost 3, 0⟩] := by decide

/-- Table 10.2: a tail of 300 is ignored and counted. -/
theorem test_tail_300 :
    let s := { running with cmd := { running.cmd with head := 10, tail := 40 } }
    (snoopTail 300 s).cmd.tail = 40 ∧ (snoopTail 300 s).cmd.tailIgnored = 1 := by decide

/-- Section 3.10, minute 1100: GRANT(4, 30) raises the limit to 150, so ALLOWANCE and the sent flag are cleared. -/
theorem test_grant_example :
    let st := grantStation 120 30 { plain mac4 with used := 120, lowSent := true, reasons := ⟨false, true, false, false⟩ }
    st.extra = 30 ∧ st.closed = false ∧ st.lowSent = false := by decide

/-- Roaming profile 1 of Table 7.6. -/
def profile1 : RoamProfile := { RoamProfile.initial with tWeak := -70, tFloor := -82, dwell := 3, shift := 2, cross := .falling }

/-- Table 7.7, uptime 203: the estimate moves from -1076 to -1127, crosses 16·T_weak falling, and the station goes to WATCH. -/
theorem test_table_7_7_watch :
    nextEstimate (some (-1076)) (-80) 2 = -1127 ∧ crossing (some (-1076)) (-1127) (16 * profile1.tWeak) = some false ∧
      (roamStep profile1 203 208 4 (plain mac4) (-1127)).1.state = .watch := by decide

/-- Table 7.7, uptime 206: dwell reaches 3 and the margin 204 meets the 160 of the game, so the station goes to CANDIDATE until 211. -/
theorem test_table_7_7_candidate :
    let st := { plain mac4 with state := .watch, dwell := 2, lastUrgent := some 202, peer := some ⟨2, -1024, 203⟩ }
    let r := roamStep profile1 206 211 4 st (-1228)
    r.1.state = .candidate ∧ r.1.deadline = 211 ∧ r.2 = some (.handoffCandidate 4 mac4 (-1228) (-1024) 2 204 true) := by decide

/-- Table 7.3, the records at uptimes 207, 209 and 219. -/
theorem test_table_7_3 :
    peerReplaces (some ⟨2, -1024, 203⟩) ⟨5, -1100, 207⟩ 207 10 = false ∧
      peerReplaces (some ⟨2, -1024, 203⟩) ⟨5, -990, 207⟩ 209 10 = true ∧
      peerReplaces (some ⟨5, -990, 207⟩) ⟨2, -1400, 219⟩ 217 10 = false ∧
      peerReplaces (some ⟨5, -990, 207⟩) ⟨2, -1400, 219⟩ 219 10 = true := by decide

/-- R22 of section 4.7: descriptor A meets slot 0 of Table 4.8 (PROTOCOL 17 and ANY_PORT 3074) and is URGENT with allowance 24. -/
theorem test_rule_slot_0 :
    (Rule.matches ⟨⟨.protocol, false, true, false, 17⟩, ⟨.anyPort, false, true, false, 3074⟩, .urgent, 24⟩
      (parseFrame 0 0 frameA) 180) = true := by decide

/-- A command: TIME_SET to minute-of-week 10079, second 59, answers DONE and sets the clock; minute 10080 is REFUSED_RANGE. -/
theorem test_time_set :
    after .timeSet (ordered 0x0F [0x5F, 0x27, 59] running) (fun t => t.sched.clock == ⟨10079, 59, 0, true⟩) = true ∧
      after .timeSet (ordered 0x0F [0x60, 0x27, 59] running) (fun t => t.sched.clock == running.sched.clock) = true := by decide

/-- RESET_RELEASE from State.reset starts the start-up sequence. -/
theorem test_release : after (.resetRelease .por 2) State.reset (fun t => t.boot == .draining && t.control == 0x0FF00000) = true := by decide

/-- A captured frame's descriptor for an uninstalled station goes to the queue of NORMAL. -/
theorem test_disposition :
    after .descriptorDisposition
      { carrying { write3 0x04000000 16 (some (copy6 .txRing (.desc desc16))) with data := lanes descBytes, stage := .held } running with
        rew := { running.rew with order := [3] } }
      (fun t => (findWrite t.path 3).any fun w => byteAt (laneBytes w.data) 6 == 3 && w.stage == .ready) = true := by decide

/-! ### Witnesses: the hypotheses of each obligation are met, clause by clause, and at the ends of their ranges -/

theorem witness_StepTakesTheFront : { running with pending := [.tick true] }.pending = .tick true :: [] ∧ running.pending = [] := ⟨rfl, rfl⟩

theorem witness_PowerOnResetClears : running.pins.por = false := rfl

theorem witness_WarmResetKeepsClockAndUsage : (having { plain mac4 with used := 1 }).pins.rst = false := rfl

theorem witness_StartUpWaitsForOwedResponses :
    State.reset.pins.asserted .por = true ∧ { running with pins := ⟨false, true, 0⟩ }.pins.asserted .rst = true ∧
      (let s := { running with boot := .draining }
       s.boot = .draining ∧ s.path.abandoned = []) ∧
      (let s := { running with boot := .draining, path := PathUnit.initial [7] 8 }
       s.boot = .draining ∧ s.path.abandoned ≠ []) := by decide

/-- A boot record of Table 10.10 from its first 28 bytes. -/
def signed (bs : List Byte) : List Byte := bs ++ leBytes 4 (crc32 bs).toNat

/-- A boot record that selects `sel`, with previous bank `prev`, trial flag `trial` and versions 5 and 6. -/
def record (sel prev trial : Byte) : List Byte :=
  signed ([0x57, 0x32, 0x36, 0x42, sel, prev, trial, 0, 5, 0, 0, 0, 6, 0, 0, 0] ++ List.replicate 12 0)

/-- Every clause of start-up: a response in error; each fault of the record; a record with trial flag 0; one with trial flag 1 at trial
counts 2, the last that is tried again, 3, the first that is reverted, and 255. -/
theorem witness_StartUpDecidesTheBankInForce :
    (let s := { running with boot := .reading 0 }
     s.boot = .reading 0 ∧ s.cmd = CommandUnit.initial ∧ s.own = OwnPort.initial) ∧
      (∃ r ∈ [Resp.okay, .slverr], r ≠ Resp.okay) ∧ (∀ r ∈ [Resp.okay], r = Resp.okay) ∧ (record 0 1 0).length = 32 ∧
      recordFault (List.replicate 32 0) = some .magic ∧ recordFault (record 0 1 0) = none ∧ recTrial (record 0 1 0) = 0 ∧
      recordFault (record 1 0 1) = none ∧ recTrial (record 1 0 1) = 1 ∧ min (2 + 1) 255 ≤ 3 ∧ 3 < min (3 + 1) 255 ∧ 3 < min (255 + 1) 255 := by
  decide +kernel

/-- Each fault of R144 occurs, and a bank byte or a trial flag of 1 is the last without one. -/
theorem witness_RecordFaultIsTheFirstFailingCheck :
    recordFault [] = some .magic ∧ recordFault ((record 0 1 0).set 8 9) = some .crc ∧ recordFault (record 2 1 0) = some .bank ∧
      recordFault (record 1 2 0) = some .bank ∧ recordFault (record 1 1 2) = some .trial ∧ recordFault (record 1 1 1) = none := by
  decide +kernel

/-- The Window Table after a reset keeps its windows apart; the first and last address of slot 0, and the first beyond it. -/
theorem witness_LookupGivesTheContainingSlot :
    WindowsApart (Windows.initial 0) ∧
      (let r := (Windows.initial 0).slots[(0 : Fin 16)]
       r.kind ≠ .off ∧ r.base = 0x00F00000 ∧ 0x00F0FFFF < r.base + r.size) ∧
      ∀ i : Fin 16, (Windows.initial 0).slots[i].kind = .off ∨ 0x00F10000 < (Windows.initial 0).slots[i].base ∨
        (Windows.initial 0).slots[i].base + (Windows.initial 0).slots[i].size ≤ 0x00F10000 := by
  unfold WindowsApart; decide

/-- Sixteen listed writes. -/
def sixteen : State :=
  { running with path := { running.path with writes := (List.range 16).map fun n => { write3 0 8 none with tag := n }, nextTag := 16 } }

/-- Writes at the last address below the boot alias, the first and last of the alias, the first and last of bank A, which is in force, the first
of B, and the ends of the record sector, with 15 and 16 places taken; reads at the ends of the alias and beyond them. -/
theorem witness_ArrivalsKeepTheirLookup :
    running.boot = .opened ∧ listedCount running.path < 16 ∧ 16 ≤ listedCount sixteen.path ∧ State.reset.boot ≠ .opened ∧
      listedCount { sixteen.path with writes := sixteen.path.writes.tail } = 15 ∧
      (∀ a ∈ [0x1BFFFFFF, 0x1E000000, 0x1FFF0000, 0x1FFFFFFF],
        ¬(0x1C000000 ≤ (at_ a 1).addr.toNat ∧ (at_ a 1).addr.toNat < 0x1D000000) ∧
          ¬(running.img.bank.base ≤ (at_ a 1).addr.toNat ∧ (at_ a 1).addr.toNat < running.img.bank.base + 0x1000000)) ∧
      (∀ a ∈ [0x1C000000, 0x1CFFFFFF], 0x1C000000 ≤ (at_ a 1).addr.toNat ∧ (at_ a 1).addr.toNat < 0x1D000000) ∧
      (∀ a ∈ [0x1D000000, 0x1DFFFFFF],
        running.img.bank.base ≤ (at_ a 1).addr.toNat ∧ (at_ a 1).addr.toNat < running.img.bank.base + 0x1000000) ∧
      (at_ 0x1BFFFFFF 1).addr.toNat < 0x1C000000 ∧ 0x1D000000 ≤ (at_ 0x1D000000 1).addr.toNat := by decide

/-- Two writes of an ID of which the older is listed and the newer has a kept place, and the same with the older in no list; a refused write
that heads its list; a write that concerns no owner, alone in the part. -/
theorem witness_WriteListsFollowTheOlderWrites :
    (let x := { write3 0x200 1 none with tag := 2, stage := .held }
     let y := { write3 0x100 1 none with listed := false, reserved := true, stage := .ready }
     [x, y][1]? = some y ∧ y.reserved = true ∧ (∃ o ∈ (settleFrom [] [x, y]).take 1, o.txn.id = y.txn.id ∧ o.listed = true) ∧
       ¬∃ o ∈ (settleFrom [] [{ x with listed := false }, y]).take 1, o.txn.id = y.txn.id ∧ o.listed = true) ∧
    (let z := { write3 0x100 1 none with stage := .refused true }
     [z][0]? = some z ∧ z.reserved = false ∧ z.listed = true) ∧
    (let d := lanes [1]
     let w := { write3 0x100 1 none with listed := false }
     let s := carrying w running
     Receives s w d ∧ s.path.writes = [] ++ w :: [] ∧ w.win = none ∧ inSector w.txn.addr.toNat = false ∧
       inStaging s.img w.txn.addr.toNat = false) := by
  unfold Receives; decide

/-- A write of `d` at `addr` through a window copy, awaited. -/
def awaiting (addr : Nat) (d : List Lane) (win : Option WinCopy) : State := carrying (write3 addr d.length win) running

theorem witness_PlainWriteIsReadyAtReception :
    (let d := lanes [1, 2]
     Receives (awaiting 0x100 d none) (write3 0x100 2 none) d ∧ (write3 0x100 2 none).win = none ∧
       inSector (write3 0x100 2 none).txn.addr.toNat = false ∧ inStaging running.img (write3 0x100 2 none).txn.addr.toNat = false) ∧
    (let w := { write3 0x1C000000 2 none with stage := .refused false }
     findWrite (carrying w running).path w.tag = some w ∧ w.stage = .refused false ∧ (lanes [1, 2]).length = w.txn.len) := by
  unfold Receives; decide

/-- A descriptor that is complete at the last record of its window, with its flag set and clear, and one of 8 bytes; the same of status
records. -/
theorem witness_CompleteRecordsAreHeldForTheRewriter :
    (let c := copy6 .txRing (.desc desc16)
     let d := lanes descBytes
     let w := write3 0x0400FFF0 16 (some c)
     Receives (awaiting 0x0400FFF0 d (some c)) w d ∧ InWindow w c .txRing ∧ c.layout = .desc desc16 ∧ CompleteFor c desc16.size w.txn d ∧
       flagSet (laneBytes d) desc16.owner = true ∧ flagSet (laneBytes (lanes (descBytes.set 7 0))) desc16.owner = false ∧
       ¬CompleteFor c desc16.size (at_ 0x0400FFF0 8) (d.take 8)) ∧
    (let c := copy6 .rxStatus (.status status16)
     let d := lanes statusBytes
     let w := write3 0x04000000 16 (some c)
     Receives (awaiting 0x04000000 d (some c)) w d ∧ InWindow w c .rxStatus ∧ c.layout = .status status16 ∧
       CompleteFor c status16.size w.txn d ∧ flagSet (laneBytes d) status16.validFlag = true ∧
       flagSet (laneBytes (lanes (statusBytes.set 7 0))) status16.validFlag = false ∧
       ¬CompleteFor c status16.size (at_ 0x04000008 16) d) := by
  unfold CompleteFor InWindow Receives; decide

/-- The frame start of buffer 3, with 12 captured bytes, with 11, and with the buffer full. -/
theorem witness_FrameStartEntersACapture :
    (let c := copy6 .frameBuffer .plain
     let d := lanes (frameA.take 12)
     let w := write3 0x04001840 12 (some c)
     Receives (awaiting 0x04001840 d (some c)) w d ∧ InWindow w c .frameBuffer ∧ w.txn.burst = .incr ∧
       c.record.base + c.record.headroom ≤ w.txn.addr.toNat ∧ (w.txn.addr.toNat - c.record.base - c.record.headroom) % c.record.stride = 0 ∧
       12 ≤ (((d.takeWhile Lane.strobe).map Lane.byte).take 96).length ∧
       ((((lanes (frameA.take 11)).takeWhile Lane.strobe).map Lane.byte).take 96).length < 12) ∧
      ¬((List.replicate 256 (parseFrame 0 0 frameA)).length < 256) ∧
      ¬((0x04001841 - 0x04000000 - 64) % 2048 = 0) := by
  unfold InWindow Receives; decide +kernel

/-- An untagged IPv4 frame; a tagged IPv6 frame; a tagged and an untagged EtherType; an IPv4 header with options and one of less than 5
words; a frame of 12 bytes, whose kind is OTHER. -/
theorem witness_HeaderFieldsStandAtTheirOffsets :
    (let bs := frameA.take 12 ++ frameA.drop 16
     headerField bs 12 2 ≠ some 0x8100 ∧ headerField bs 12 2 = some 0x0800 ∧ (parseFrame 0 0 bs).kind = .ipv4 ∧
       (parseFrame 0 0 bs).proto = some 17 ∧ headerField bs 14 1 = some 0x45 ∧ 5 ≤ 0x45 % 16 ∧
       (parseFrame 0 0 (bs.set 14 0x46)).kind = .ipv4 ∧ headerField (bs.set 14 0x44) 14 1 = some 0x44 ∧ 0x44 % 16 < 5) ∧
      (let bs : List Byte := List.replicate 12 0 ++ [0x81, 0, 0, 0, 0x86, 0xDD] ++ List.replicate 6 0 ++ [6] ++ List.replicate 37 0
       headerField bs 12 2 = some 0x8100 ∧ headerField bs 16 2 = some 0x86DD ∧ (parseFrame 0 0 bs).kind = .ipv6 ∧
         (parseFrame 0 0 bs).proto = some 6) ∧
      (parseFrame 0 0 (frameA.take 12)).kind = .other := by decide

/-- A peer record of station 4 from node 7 (the last node id), estimate -1024, age 1. -/
def peerBytes : List Byte := [0x02, 0x5A, 0x10, 0x6C, 0x33, 0xE1, 7, 0, 0x00, 0xFC, 1, 0, 0, 0, 0, 0]

/-- Each clause: ignored for an unknown MAC and for node 8; taken with no entry, with an expired one, and with one that stands. -/
theorem witness_PeerRecordIsTakenAtReception :
    let c := copy6 .peer .plain
    let d := lanes peerBytes
    let w := write3 0x04000000 16 (some c)
    let s (peer : Option Peer) := timed 204 (carrying w (having { plain mac4 with peer := peer }))
    Receives (s none) w d ∧ InWindow w c .peer ∧ CompleteFor c 16 w.txn d ∧
      (let r := peerRecordOf c.record.order (laneBytes d)
       r.node ≤ 7 ∧ r.est = -1024 ∧ r.age = 1 ∧ findStation (s none).sta r.mac = some 4 ∧ findStation running.sta r.mac = none ∧
         7 < (peerRecordOf c.record.order (laneBytes (lanes (peerBytes.set 6 8)))).node ∧ r.node ≠ (s none).sig.node ∧
         10 < 204 - 193 ∧ 204 - 194 ≤ 10 ∧ (5 : Nat) ≠ r.node ∧ max (-1600) (min (-320) r.est) ≤ (-1024 : Int) ∧
         ¬CompleteFor c 16 (at_ 0x04000008 16) d) := by
  unfold CompleteFor InWindow Receives; decide

/-- The last record of the command area; writes that are no command: 31 bytes, at offset 4, and with a clear strobe. -/
theorem witness_CommandAreaWritesAreCapturedOrIgnored :
    (let d := lanes (List.replicate 32 1)
     let w := write3 0x00F007E0 32 (some copy0)
     let s := awaiting 0x00F007E0 d (some copy0)
     Receives s w d ∧ InWindow w copy0 .control ∧ copy0.record.base ≤ w.txn.addr.toNat ∧
       w.txn.addr.toNat + 32 ≤ copy0.record.base + 0x800 ∧ (w.txn.addr.toNat - copy0.record.base) % 32 = 0 ∧ w.txn.len = 32 ∧
       covers w.txn = true ∧ (∀ l ∈ d, l.strobe = true) ∧ s.cmd.queue.length < 8 ∧ 8 ≤ (List.replicate 8 (List.replicate 32 (1 : Byte))).length) ∧
    (let d := lanes (List.replicate 31 1)
     let w := write3 0x00F007FF 31 (some copy0)
     let s := awaiting 0x00F007FF d (some copy0)
     Receives s w d ∧ InWindow w copy0 .control ∧ copy0.record.base ≤ w.txn.addr.toNat ∧ w.txn.addr.toNat < copy0.record.base + 0x800 ∧
       copy0.record.base = s.control ∧ w.txn.len ≠ 32) := by
  unfold InWindow Receives; decide

/-- The tail word with value 0 under H = 0, T = 255, which is accepted; 1, which is not; and 256. -/
theorem witness_TailWordMovesTheTail :
    let d := lanes [0, 0, 0, 0]
    let w := write3 0x00F00800 4 (some copy0)
    let s := awaiting 0x00F00800 d (some copy0)
    let u := { s with cmd := { s.cmd with head := 0, tail := 255, lost := 1 } }
    Receives u w d ∧ InWindow w copy0 .control ∧ w.txn.addr.toNat = copy0.record.base + 0x800 ∧ w.txn.len = 4 ∧ covers w.txn = true ∧
      (∀ l ∈ d, l.strobe = true) ∧ u.cmd.head < 256 ∧ u.cmd.tail < 256 ∧ leNat (d.map Lane.byte) = 0 ∧
      (0 + 256 - u.cmd.tail) % 256 ≤ (u.cmd.head + 256 - u.cmd.tail) % 256 ∧
      (u.cmd.head + 256 - u.cmd.tail) % 256 < (1 + 256 - u.cmd.tail) % 256 ∧ 256 ≤ leNat [0, 1, 0, (0 : Byte)] ∧ 0 < u.cmd.lost ∧
      room { u.cmd with tail := 0 } = true ∧ copy0.record.base + 0x800 ≤ (at_ 0x00F00801 4).addr.toNat ∧
      (at_ 0x00F00801 4).addr.toNat ≠ copy0.record.base + 0x800 := by
  unfold InWindow Receives; decide

/-- A staging context of one chunk of 16 bytes in bank B. -/
def staged (state : StagingState) (sweep : Option Sweep) (chunks : Vector Chunk 256) : Staging :=
  { Staging.initial with state := state, bank := some .b, length := 16, expectedCrc := 1, version := 9, chunkCount := 1, sweep := sweep,
                         chunks := chunks }

/-- A state with a staging context. -/
def staging (g : Staging) (s : State) : State := { s with img := { s.img with staging := g } }

/-- Writes at offsets 0, 8 (the progress of the chunk), 4 (another offset), and 16 (the length), in every state but IDLE and VERIFYING. -/
theorem witness_StagingWriteFollowsTheChunkMap :
    let d := lanes (List.replicate 8 1)
    (∀ state ∈ [StagingState.receiving, .complete, .verified, .corrupt], ∀ a ∈ [0x1E000000, 0x1E000008, 0x1E000004, 0x1E000010],
      let g := staged state none (Vector.replicate 256 ⟨.filling, 8⟩)
      let w := write3 a 8 none
      Receives (staging g (awaiting a d none)) w d ∧ g.state ≠ .idle ∧ g.state ≠ .verifying ∧ g.bank = some .b ∧
        Bank.base .b ≤ w.txn.addr.toNat ∧ w.txn.addr.toNat < Bank.base .b + 0x1000000 ∧ w.txn.burst = .incr) ∧
      (∀ l ∈ d, l.strobe = true) ∧
      ChunksComplete (staged .complete none (Vector.replicate 256 ⟨.complete, 16⟩)) ∧
      ¬ChunksComplete (staged .receiving none (Vector.replicate 256 ⟨.filling, 8⟩)) := by
  unfold Receives ChunksComplete; decide +kernel

/-- A sweep with share 2 at a step. -/
def sweep (step : SweepStep) : Sweep := { share := 2, yields := true, offset := 0, crc := 0xFFFFFFFF#32, writes := [], step := step }

theorem witness_StagingWriteInterruptsTheSweep :
    let d := lanes (List.replicate 8 1)
    let w := write3 0x1EFFFFF8 8 none
    let s := staging (staged .verifying (some (sweep (.reading 1))) (Vector.replicate 256 ⟨.complete, 16⟩)) (awaiting 0x1EFFFFF8 d none)
    Receives s w d ∧ s.img.staging.state = .verifying ∧ s.img.staging.bank = some .b ∧ s.img.staging.sweep = some (sweep (.reading 1)) ∧
      (sweep (.reading 1)).step = .reading 1 ∧ Bank.base .b ≤ w.txn.addr.toNat ∧ w.txn.addr.toNat < Bank.base .b + 0x1000000 ∧
      ChunksComplete s.img.staging := by
  unfold Receives ChunksComplete; decide +kernel

/-- The record at the start of the sector, and a write at its last address. -/
theorem witness_SectorWriteIsHeldOrRefused :
    (let d := lanes (record 0 1 0)
     let w := write3 0x1FFF0000 32 none
     Receives (awaiting 0x1FFF0000 d none) w d ∧ w.txn.addr.toNat = 0x1FFF0000 ∧ w.txn.len = 32 ∧ covers w.txn = true ∧
       ∀ l ∈ d, l.strobe = true) ∧
    (let d := lanes [1]
     let w := write3 0x1FFFFFFF 1 none
     Receives (awaiting 0x1FFFFFFF d none) w d ∧ w.txn.addr.toNat ≤ 0x1FFFFFFF ∧ w.txn.addr.toNat ≠ 0x1FFF0000) := by
  unfold Receives; decide +kernel

/-- A held record write: one that fails, one for the bank in force, and one for the other bank with staging VERIFIED. -/
theorem witness_BootRecordWriteIsChecked :
    let w (bs : List Byte) := { write3 0x1FFF0000 32 none with data := lanes bs, stage := .held }
    let s (bs : List Byte) := { carrying (w bs) running with img := { running.img with checks := [3] } }
    (∀ bs ∈ [record 2 0 0, record 0 1 0, record 1 0 1],
      (s bs).img.checks = (w bs).tag :: [] ∧ findWrite (s bs).path (w bs).tag = some (w bs)) ∧
      recordFault (record 2 0 0) = some .bank ∧ recordFault (record 0 1 0) = none ∧ bankOf (recSelected (record 0 1 0)) = some .a ∧
      recordFault (record 1 0 1) = none ∧ bankOf (recSelected (record 1 0 1)) = some .b ∧ recVersion (record 1 0 1) .b = 6 := by
  decide +kernel

/-- A descriptor held at the front of the decision order, for a frame that is captured. -/
def deciding (s : State) : State :=
  { carrying { write3 0x04000000 16 (some (copy6 .txRing (.desc desc16))) with data := lanes descBytes, stage := .held } s with
    rew := { s.rew with order := [3] }, capture := { s.capture with records := [parseFrame 0x04001840 0 frameA] } }

/-- The write of that descriptor. -/
def descWrite : WriteTx := { write3 0x04000000 16 (some (copy6 .txRing (.desc desc16))) with data := lanes descBytes, stage := .held }

theorem witness_DescriptorIsDecidedExactlyOnce :
    (deciding running).rew.order = descWrite.tag :: [] ∧ findWrite (deciding running).path descWrite.tag = some descWrite ∧
      descWrite.win = some (copy6 .txRing (.desc desc16)) ∧ (copy6 .txRing (.desc desc16)).layout = .desc desc16 := by decide

/-- The last byte and the highest queue bit; the last bit of the last byte. -/
theorem witness_RewritingChangesOnlyTheField :
    { desc16 with queueByte := 15, queueBit := 4 }.queueByte < descBytes.length ∧ { desc16 with queueBit := 4 }.queueBit ≤ 4 ∧
      (⟨15, 7, true⟩ : FlagPos).byte < descBytes.length ∧ (⟨15, 7, true⟩ : FlagPos).bit < 8 ∧
      descBytes.length = (lanes descBytes).length := by decide

/-- A handoff of station 4 in slot 0 with `n` references. -/
def handing (n : Nat) (executing : Executing) : State :=
  let s := having { plain mac4 with state := .handoff, slot := some 0, deadline := 211 }
  let refs := (List.range n).map fun k => (⟨0x1000 + 16 * k, 60, 6, k⟩ : HoldRef)
  { putSlot 0 (.occupied ⟨4, 0x31, 208, n, refs⟩) s with
    cmd := { s.cmd with executing := executing }, time := { s.time with secs := 212 } }

/-- A CLOSED gate; HANDOFF with the gate OPEN, the list at 31 references and at 32. -/
theorem witness_GateAndHandoffDecideBeforeClassification :
    (∀ s ∈ [having { plain mac4 with reasons := ⟨false, false, false, true⟩ }, handing 31 .idle, handing 32 .idle],
      (deciding s).rew.order = descWrite.tag :: [] ∧ findWrite (deciding s).path descWrite.tag = some descWrite ∧
        ((deciding s).capture.records.find? fun r => r.key == 0x04001840) = some (parseFrame 0x04001840 0 frameA) ∧
        findStation (deciding s).sta (parseFrame 0x04001840 0 frameA).dst = some 4) ∧
      (descriptorOf descWrite).map Descriptor.buffer = some 0x04001840 ∧
      (having { plain mac4 with reasons := ⟨false, false, false, true⟩ }).sta.stations[(4 : Fin 128)] =
        some { plain mac4 with reasons := ⟨false, false, false, true⟩ } ∧
      { plain mac4 with reasons := ⟨false, false, false, true⟩ }.closed = true ∧
      (handing 31 .idle).sta.stations[(4 : Fin 128)] = some { plain mac4 with state := .handoff, slot := some 0, deadline := 211 } ∧
      (plain mac4).closed = false ∧ (handing 31 .idle).hold.slots[(0 : Fin 16)] ≠ .free := by decide

/-- A frame that is not captured; a captured one whose destination misses, and one of a group address; a station with its gate OPEN. -/
theorem witness_OtherDescriptorsAreClassifiedAndForwarded :
    let cap := parseFrame 0x04001840 0 frameA
    (∀ s ∈ [running, having (plain mac4)],
      (deciding s).rew.order = descWrite.tag :: [] ∧ findWrite (deciding s).path descWrite.tag = some descWrite ∧
        ((deciding s).capture.records.find? fun r => r.key == 0x04001840) = some cap) ∧
      (descriptorOf descWrite).map Descriptor.buffer = some 0x04001840 ∧ running.capture.records = [] ∧
      findStation (deciding running).sta cap.dst = none ∧ isGroup cap.dst = false ∧ isGroup 0x010000000000#48 = true ∧
      findStation (deciding (having (plain mac4))).sta cap.dst = some 4 ∧
      (having (plain mac4)).sta.stations[(4 : Fin 128)] = some (plain mac4) ∧ (plain mac4).closed = false ∧
      (plain mac4).state ≠ .handoff ∧ ∀ k : Fin 16, running.rew.counts[k] = SlotCounts.zero := by decide

/-- The first entry of the Flow Table. -/
def flow0 (cls : Machine.Class) (allowance bytes : Nat) : Flow :=
  { key := (parseFrame 0 0 frameA).flowKey, station := some 4, cls := cls, allowance := allowance, pinned := false, periodBytes := bytes,
    overFlag := false, overCount := 0, lastSeen := 0, count := 1 }

/-- A state whose Flow Table holds one entry, at index 0. -/
def flowing (e : Flow) : State := { running with cls := putFlow 0 (some e) running.cls }

/-- Allowance 24 is 1536 bytes: the last length that passes the flow test and the first that does not; a cap of 1 with 64 bytes and 65. -/
theorem witness_UrgentAdmissionTestsFlowThenCap :
    (flowing (flow0 .urgent 24 0)).cls.flows[(0 : Fin 256)] = some (flow0 .urgent 24 0) ∧ 0 + 1536 ≤ 24 * 64 ∧ 24 * 64 < 0 + 1537 ∧
      (1 : Nat) ≠ 0 ∧ 0 + 64 ≤ 1 * 64 ∧ 1 * 64 < 0 + 65 ∧
      (having (plain mac4)).sta.stations[(4 : Fin 128)] = some (plain mac4) := by decide

/-- A flow that is in the table; an empty table whose Match List has a matching rule in slot 31, its last; one with no rule; a full table of
other flows, of which the entry at 0 is the lowest of the oldest. -/
theorem witness_FlowsAreLearntOnceAndThenFound :
    (let cap := parseFrame 0 0 frameA
     let rule : Rule := ⟨⟨.protocol, false, true, false, 17⟩, ⟨.anyPort, false, true, false, 3074⟩, .urgent, 24⟩
     findFlow (flowing (flow0 .urgent 24 0)).cls.flows cap.flowKey = some 0 ∧ findFlow running.cls.flows cap.flowKey = none ∧
       running.cls.flows[(0 : Fin 256)] = none ∧ rule.matches cap 180 = true ∧
       (vput running.cls.rules 31 (some rule))[(31 : Fin 32)] = some rule ∧ (∀ j : Fin 32, running.cls.rules[j] = none) ∧
       (let full : Vector (Option Flow) 256 := Vector.replicate 256 (some { flow0 .normal 0 0 with key := ⟨6, 0, 0, 0, 0⟩ })
        findFlow full cap.flowKey = none ∧ full[(0 : Fin 256)] = some { flow0 .normal 0 0 with key := ⟨6, 0, 0, 0, 0⟩ } ∧
          (∀ j : Fin 256, full[j] ≠ none) ∧ ∀ j : Fin 256, (full[j]).all fun g => (0 : Nat) = g.lastSeen)) := by decide +kernel

/-- A status record held at the front of the decision order. -/
def hearing (s : State) : State :=
  { carrying { write3 0x04000000 16 (some (copy6 .rxStatus (.status status16))) with data := lanes statusBytes, stage := .held } s with
    rew := { s.rew with order := [3] } }

/-- Each clause: the gate CLOSED, the gate OPEN, and an unknown MAC, not listed and listed. -/
theorem witness_StatusRecordGetsTheDropMarkOfAClosedGate :
    let w := { write3 0x04000000 16 (some (copy6 .rxStatus (.status status16))) with data := lanes statusBytes, stage := .held }
    (∀ st ∈ [plain mac4, { plain mac4 with reasons := ⟨true, false, false, false⟩ }],
      (hearing (having st)).rew.order = w.tag :: [] ∧ findWrite (hearing (having st)).path w.tag = some w ∧
        findStation (hearing (having st)).sta mac4 = some 4 ∧ (hearing (having st)).sta.stations[(4 : Fin 128)] = some st) ∧
      (statusOf w).map StatusRecord.mac = some mac4 ∧ findStation (hearing running).sta mac4 = none ∧ isGroup mac4 = false ∧
      mac4 ∉ (hearing running).sta.unknown ∧ isGroup 0x010000000000#48 = true := by decide

/-- A sample of station 4 behind one of station 5: lost, invalid at 0, +127 and -128, and valid at the ends -127 and +126. -/
theorem witness_SampleMovesTheEstimate :
    let x (raw : Byte) : Sample := ⟨4, mac4, raw⟩
    let y : Sample := ⟨5, mac4, 0⟩
    let s (raw : Byte) := { having { plain mac4 with est := some (-1000) } with sig := { running.sig with samples := [y, x raw] } }
    (s 0x81).sig.samples = [y] ++ x 0x81 :: [] ∧ (∀ z ∈ [y], z.station ≠ (x 0x81).station) ∧ (s 0x81).time.visitDue = false ∧
      { running with time := { running.time with visitDue := true } }.time.visitDue = true ∧
      (s 0x81).sta.stations[(x 0x81).station] = some { plain mac4 with est := some (-1000) } ∧
      running.sta.stations[(4 : Fin 128)] = none ∧ (0x7F : Byte).toInt = 127 ∧ (0x80 : Byte).toInt = -128 ∧ (0x81 : Byte).toInt = -127 ∧
      (0x7E : Byte).toInt = 126 ∧ (16 * (-100) - (-1000) : Int).natAbs ≥ 2 ^ 3 ∧ (16 * (-63) - (-1001) : Int).natAbs < 2 ^ 3 := by decide

/-- Dwell at the last value below D and at D; a peer at the last age that stands and at the first that is expired; a margin met and missed. -/
theorem witness_RoamingMakesAtMostOneTransition :
    let st := { plain mac4 with state := .watch, dwell := 1, peer := some ⟨2, -1024, 203⟩, lastUrgent := some 203 }
    st.state = .watch ∧ (-1228 : Int) < 16 * (profile1.tWeak + profile1.hys) ∧ min (st.dwell + 1) 63 < profile1.dwell ∧
      profile1.dwell ≤ min (2 + 1) 63 ∧ st.peer = some ⟨2, -1024, 203⟩ ∧ 213 - 203 ≤ profile1.peerMaxAge ∧ profile1.peerMaxAge < 214 - 203 ∧
      213 - 203 ≤ profile1.urgentRecent ∧ 16 * profile1.tFloor ≤ (-1228 : Int) ∧ (160 : Int) ≤ -1024 - (-1228) ∧
      ((-1024) - (-1183) : Int) < 160 := by decide

/-- An own write requested; a ready write of tag 3 behind one of another ID that is still held; nothing to issue. -/
theorem witness_WriteSideGrantsOwnWritesFirst :
    (let o : OwnWrite := ⟨.head, 0x00F00808, [0, 0, 0, 0]⟩
     { running with own := ⟨[o], []⟩ }.own.requests = o :: []) ∧
    (let w := { write3 0x100 1 none with stage := .ready }
     let old := { write3 0x200 1 none with tag := 2, stage := .held, txn := { at_ 0x200 1 with id := 9 } }
     let s := { running with path := { running.path with writes := [old, w], ready := [3], nextTag := 4 } }
     s.own.requests = [] ∧ s.path.ready = [] ++ w.tag :: [] ∧ s.path.writes = [old] ++ w :: [] ∧
       (∀ x ∈ [old] ++ ([] : List WriteTx), x.tag ≠ w.tag) ∧ (∀ x ∈ [old], x.txn.id = w.txn.id → x.inside = false)) ∧
    running.own.requests = [] ∧ running.path.ready = [] := by decide

/-- The boot-record read; a sweep read with W at N, and with no read waiting; a read beside a sweep with W one below N, and with the sweep
yielding to play. -/
theorem witness_ReadSideSharesWithTheSweep :
    { running with boot := .requesting }.boot = .requesting ∧
    (let v := sweep .waiting
     let r : ReadTx := ⟨7, at_ 0x100 8, none, 0x100, false⟩
     let s (wait : Nat) (play : Bool) :=
       staging (staged .verifying (some v) (Vector.replicate 256 ⟨.complete, 16⟩))
         { running with path := { running.path with reads := [r], nextTag := 8, sweepWait := wait }, adm := { running.adm with activity := play } }
     (s 2 false).boot ≠ .requesting ∧ (s 2 false).img.staging.sweep = some v ∧ (s 2 false).img.staging.bank = some .b ∧ v.step = .waiting ∧
       (s 2 false).adm.activity = false ∧ v.share ≤ (s 2 false).path.sweepWait ∧
       (∀ q ∈ { s 0 false with path := running.path }.path.reads, q.issued = true) ∧
       (s 1 false).path.reads = [] ++ r :: [] ∧ r.issued = false ∧ (s 1 false).path.sweepWait < v.share ∧ v.yields = true ∧
       (s 2 true).adm.activity = true) := by decide

/-- A newer write of an ID answered, one of another ID, and a third of the ID that is not answered, after which the kept responses end. -/
theorem witness_returns (x kept other : WriteTx) (hk : kept.stage = .answered .okay) (ho : other.txn.id ≠ x.txn.id) (hx : x.stage = .ready) :
    ReturnsThrough x.txn.id [kept, other, x] [kept, other] [x] ∧ ReturnsThrough x.txn.id [] [] [] := by
  refine ⟨⟨rfl, fun y hy hid => ?_, .inr ⟨x, [], rfl, rfl, fun r h => ?_⟩⟩, ⟨rfl, fun y hy => absurd hy List.not_mem_nil, .inl rfl⟩⟩
  rcases List.mem_cons.1 hy with rfl | hy
  · exact ⟨_, hk⟩
  · rcases List.mem_singleton.1 hy with rfl
    exact absurd hid ho
  · rw [hx] at h; cases h

/-- A read and a write that are issued and the oldest; a write behind an unanswered write of its ID; and a refused write with its data. -/
theorem witness_ResponsesReturnInArrivalOrder :
    (let r : ReadTx := ⟨7, at_ 0x100 8, none, 0x100, true⟩
     { running with path := { running.path with reads := [r], nextTag := 8 } }.path.reads = [] ++ r :: [] ∧ r.issued = true) ∧
    (let w := { write3 0x100 1 none with stage := .issued }
     let x := { write3 0x200 1 none with tag := 2, stage := .ready }
     (carrying w running).path.writes = [] ++ w :: [] ∧ w.stage = .issued ∧
       { running with path := { running.path with writes := [x, w], nextTag := 4 } }.path.writes = ([] ++ x :: []) ++ w :: [] ∧
       x.txn.id = w.txn.id ∧ x.tag ≠ w.tag) ∧
    (let w := { write3 0x1C000000 1 none with stage := .refused true }
     (carrying w running).path.writes = [] ++ w :: [] ∧ w.stage = .refused true) := by decide

/-- The four clauses: the last free slot of the ring with and without a lost count, the first full ring, and 15 and 16 reports waiting. -/
theorem witness_OfferedReportIsQueuedOrCounted :
    (254 + 256 - 0) % 256 + 0 < 255 ∧ (254 + 256 - 0) % 256 + 0 = 254 ∧ 255 ≤ (255 + 256 - 0) % 256 + 0 ∧
      (List.replicate 15 (⟨.lost 1, 0⟩ : Waiting)).length < 16 ∧ 16 ≤ (List.replicate 16 (⟨.lost 1, 0⟩ : Waiting)).length ∧
      running.cmd.head < 256 ∧ running.cmd.tail < 256 ∧ running.cmd.lost = 0 := by decide

/-- A full queue of 8 with a held command write, its end with room for the COMPLETION. -/
theorem witness_CompletionFreesTheQueuePlace :
    let c : List Byte := List.replicate 32 0
    let w := { write3 0x00F00000 32 (some copy0) with stage := .held, data := lanes c }
    let s := { carrying w running with cmd := { running.cmd with queue := List.replicate 8 c, held := [3] } }
    s.cmd.queue = c :: List.replicate 7 c ∧ (List.replicate 7 c).length < 8 ∧ s.cmd.lost = 0 ∧ s.cmd.waiting.length < 16 ∧
      0 < freeSpace s.cmd ∧ s.cmd.held = 3 :: [] ∧ findWrite s.path 3 = some w ∧ running.cmd.held = [] := by decide

theorem witness_ReportRingAdvancesOnOkay :
    let w : Waiting := ⟨.commitApplied 1, 0⟩
    let s := { running with own := ⟨[], [(4, .report), (5, .head)]⟩, cmd := { running.cmd with waiting := [w], head := 255, tail := 9 } }
    s.own.issued = [] ++ (4, .report) :: [(5, .head)] ∧ s.cmd.waiting = w :: [] ∧ s.own.issued = [(4, .report)] ++ (5, .head) :: [] ∧
      (∀ e ∈ [] ++ [(5, OwnKind.head)], e.1 ≠ 4) ∧ ∀ e ∈ [(4, OwnKind.report)] ++ [], e.1 ≠ 5 := by decide

/-- Sections 0 and 18 with both flags, section 19 and flag 2; a section with 2 and with 1 response awaited. -/
theorem witness_StatsTakesASectionAndClearsItsCounts :
    (∀ p ∈ [[0, 0], [0, 1], [1, 1], [2, 1], [3, 1], [18, 1], [19, 0], [0, (2 : Byte)]], commanded (ordered 0x20 p running) 0x20 p = true) ∧
      (byteAt [18, 1] 0).toNat ≤ 18 ∧ (byteAt [18, 1] 1).toNat = true.toNat ∧ 18 < (byteAt [19, 0] 0).toNat ∧ 1 < (byteAt [0, 2] 1).toNat ∧
      (let s (n : Nat) := { running with own := ⟨[], [(4, .stats)]⟩, cmd := { running.cmd with executing := .stats 2 512 n true } }
       (s 2).own.issued = [] ++ (4, .stats) :: [] ∧ (s 2).cmd.executing = .stats 2 512 2 true ∧
         (s 1).cmd.executing = .stats 2 512 1 true) := by
  decide

/-- The last window slot, handoff slot and station have their words, in the last section. -/
theorem witness_StatisticsWordsStandInTheirOrder :
    2 ≤ (15 : Fin 16).val ∧ 3 + (127 : Fin 128).val / 8 = 18 ∧ (sectionWords running 18).length = 256 ∧ (sectionWords running 0).length = 112 := by
  decide +kernel

/-- A sweep that awaits no write; a stale read; a read of a 16-byte image, and of a 129-byte one, which is not the last. -/
theorem witness_SweepVerifiesExactlyTheLength :
    (let s (step : SweepStep) := staging (staged .verifying (some (sweep step)) (Vector.replicate 256 ⟨.complete, 16⟩)) running
     (s .awaiting).img.staging.sweep = some (sweep .awaiting) ∧ (sweep .awaiting).step = .awaiting ∧ (s .awaiting).path.writes = [] ∧
       (s (.reading 3)).img.staging.sweep = some (sweep (.reading 3)) ∧ (sweep (.reading 3)).step = .reading 3 ∧
       (s (.reading 3)).img.staging.length ≤ (sweep (.reading 3)).offset + 128 ∧ (0 : Nat) + 128 < 129 ∧
       3 ∉ (s (.reading 3)).img.staging.stale) ∧
      (List.replicate 128 (0 : Byte)).length = 128 ∧ 3 ∈ { Staging.initial with stale := [3] }.stale := by decide +kernel

/-- The last prescaler value and second, the last tick of a period, and a second that is due. -/
theorem witness_TickAdvancesTheCounts :
    (let s := { running with sched := { running.sched with clock := ⟨0, 59, 1023, true⟩ }, time := ⟨1023, 0, false, false, false⟩,
                             adm := { running.adm with ticks := 9 } }
     s.pins.por = false ∧ s.time.secondDue = false ∧ s.time.agingDue = false ∧ s.sched.minuteDue = false ∧ s.adm.boundaryDue = false ∧
       s.sched.line.run ≠ 32 ∧ s.time.visitDue = false ∧ 1023 ≤ s.sched.clock.presc ∧ 59 ≤ s.sched.clock.second ∧ 1023 ≤ s.time.presc ∧
       s.adm.params.period ≤ s.adm.ticks + 1 ∧ s.pins.rst = false) ∧
      { running with time := ⟨0, 4294967295, true, false, false⟩ }.time.secondDue = true ∧
      { running with time := ⟨0, 0, false, true, false⟩ }.time.agingDue = true := by decide +kernel

/-- A visit due at uptime 212 with deadline 211, the last that is passed, in each of the three states, and 212, the first that is not. -/
theorem witness_UptimeVisitIsTakenWhole :
    (∀ state ∈ [Roam.candidate, .holdoff, .handoff],
      let s := timed 212 (having { plain mac4 with state := state, deadline := 211 })
      { s with time := { s.time with visitDue := true } }.time.visitDue = true ∧
        s.sta.stations[(4 : Fin 128)] = some { plain mac4 with state := state, deadline := 211 } ∧ 211 < s.time.secs ∧ ¬212 < s.time.secs) ∧
      running.sta.stations[(127 : Fin 128)] = none ∧ running.time.visitDue = false ∧
      (∀ n ∈ [0, 16, 17, 32],
        (handing n .idle).sta.stations[(4 : Fin 128)] = some { plain mac4 with state := .handoff, slot := some 0, deadline := 211 } ∧
        (handing n .idle).hold.slots[(0 : Fin 16)] ≠ .free ∧ (handing n .idle).cmd.executing = .idle) := by decide

/-- HANDOFF_END with both outcomes, out of range, and for a station that is not in HANDOFF; a dump with 2 and with 1 response awaited, under
each command that waits for it and under none. -/
theorem witness_HandoffEndsWithItsHoldRelease :
    (∀ p ∈ [[4, 0], [4, 1], [128, 0], [4, (2 : Byte)]], commanded (ordered 0x1B p (handing 17 .idle)) 0x1B p = true) ∧
      (handing 17 .idle).hold.slots[(0 : Fin 16)] ≠ .free ∧ (handing 0 .idle).hold.slots[(0 : Fin 16)] = .occupied ⟨4, 0x31, 208, 0, []⟩ ∧
      (having (plain mac4)).sta.stations[(4 : Fin 128)] = some (plain mac4) ∧
      (∀ n ∈ [1, 2], ∀ e ∈ [Executing.idle, .ending 0, .clearing 0 4],
        let d : Dumping := ⟨4, 0x31, 208, 1, [], .stayed, 0, false, n⟩
        let s := putSlot 0 (.dumping d) { running with own := ⟨[], [(9, .dump 0)]⟩, cmd := { running.cmd with executing := e } }
        s.own.issued = [] ++ (9, .dump 0) :: [] ∧ s.hold.slots[(0 : Fin 16)] = .dumping d ∧ s.cmd.executing = e) := by decide

/-- A boundary that is due: while RST_N is asserted, into a new day (10079 wraps to 0), and with a commit of profile 1. -/
theorem witness_MinuteBoundaryTakesItsSteps :
    (let s (rst : Bool) := { having { plain mac4 with sched := some 1 } with
        pins := ⟨false, rst, 0⟩, sched := { running.sched with minuteDue := true, clock := ⟨10079, 59, 0, true⟩, commit := some 2 } }
     (s true).sched.minuteDue = true ∧ (s true).pins.rst = true ∧ (s false).pins.rst = false ∧ (s false).pins.por = false ∧
       ((s false).sched.clock.minute + 1) % 10080 % 1440 = 0 ∧ (s false).sched.commit = some 2 ∧ (2 : BitVec 16).getLsbD 1 = true ∧
       (s false).sta.stations[(4 : Fin 128)] = some { plain mac4 with sched := some 1 }) ∧
      (staged .verified none (Vector.replicate 256 ⟨.complete, 16⟩)).bank = some .b := by decide

/-- The last valid minute and second, the first invalid of each; a new day and the day of the clock. -/
theorem witness_TimeSetStartsADayOnlyAcrossDays :
    (∀ p ∈ [[0x5F, 0x27, 59], [0x60, 0x27, 59], [0x5F, 0x27, (60 : Byte)]], commanded (ordered 0x0F p running) 0x0F p = true) ∧
      param2 [0x5F, 0x27, 59] 0 ≤ 10079 ∧ param1 [0x5F, 0x27, 59] 2 ≤ 59 ∧ 10079 < param2 [0x60, 0x27, 59] 0 ∧
      59 < param1 [0x5F, 0x27, 60] 2 ∧ running.sched.clock.isSet = false ∧ (10079 : Nat) / 1440 = 8640 / 1440 := by decide

/-- A run of 32 in each mode, both levels, seconds 29 and 30; LINE_SET at its largest values and beyond. -/
theorem witness_LineEdgesActUnderTheMode :
    (∀ mode ∈ [LineMode.off, .pause, .sync], ∀ level ∈ [false, true],
      { running with sched := { running.sched with line := ⟨mode, true, true, level, 32⟩ } }.sched.line.run = 32) ∧ 29 < 30 ∧
      (∀ p ∈ [[2, 1, 1], [3, 0, 0], [0, 2, 0], [0, 0, (2 : Byte)]], commanded (ordered 0x16 p running) 0x16 p = true) ∧
      param1 [2, 1, 1] 0 = 2 ∧ param1 [2, 1, 1] 1 = 1 ∧ param1 [2, 1, 1] 2 = 1 ∧ running.pins.por = false ∧ running.pins.rst = false := by
  decide

/-- A boundary that is due with a flow that has overrun; the two commands at the ends of their ranges. -/
theorem witness_PacingBoundaryAppliesAndDemotes :
    (let e := { flow0 .urgent 24 0 with overFlag := true, overCount := 2 }
     { flowing e with adm := { running.adm with boundaryDue := true } }.adm.boundaryDue = true ∧
       (flowing e).cls.flows[(0 : Fin 256)] = some e ∧ 3 ≤ min (e.overCount + 1) 15) ∧
      (∀ p ∈ [[1, 1, 1], [255, 15, 255], [0, 1, 1], [1, 16, (1 : Byte)]], commanded (ordered 0x0D p running) 0x0D p = true) ∧
      (∀ p ∈ [[1, 0, 0], [2, 0, 0], [15, 0, 0], [16, 0, (0 : Byte)]], commanded (ordered 0x0E p running) 0x0E p = true) ∧
      (let s := { running with win := { running.win with slots := vput running.win.slots 2 (copy6 .txRing .plain).record } }
       (s.win.slots[(2 : Fin 16)]).kind = .txRing ∧ (s.adm.slots[(2 : Fin 16)]).capPending = false) ∧
      (running.win.slots[(15 : Fin 16)]).kind ≠ .txRing := by decide

/-- Kind codes 0x00 and 0x21, the last known one, and a flags byte of 1. -/
theorem witness_UnknownCodesAndFlagsAreRefused :
    (ordered 0x21 [] running).cmd.queue = [0x21, 0, 0x34, 0x12] :: [] ∧ running.cmd.executing = .idle ∧ 0x20 < (byteAt [0x21] 0).toNat ∧
      (byteAt [0] 0).toNat = 0 ∧ (byteAt [0x20] 0).toNat ≤ 0x20 ∧ byteAt [0x20, 1] 1 ≠ 0 ∧ (0x20, Instr.stats) ∈ commandTable ∧
      running.time.visitDue = false ∧ Executing.ending 0 ≠ .idle := by decide

/-- Parameters of WINDOW_SET: slot, kind, base, size, byte order, profile, four queue numbers, stride, headroom. -/
def windowP (slot kind : Byte) (base size : List Byte) : List Byte :=
  [slot, kind] ++ base ++ size ++ [1, 3, 7, 3, 1, 15, 0x00, 0x40, 255]

/-- A state with every profile valid. -/
def profiled : State :=
  { running with win := { running.win with desc := Vector.replicate 4 desc16, status := Vector.replicate 4 status16 } }

/-- Each kind is asked for with the last byte order, profile and queue number, the window ending at the end of DRAM; a stride of 2^14. -/
theorem witness_window_asked :
    let base : List Byte := [0x00, 0xF0, 0xFF, 0x1B]
    let size : List Byte := [0x00, 0x10, 0x00, 0x00]
    let bare (kind : WindowKind) : WindowRec := { WindowRec.off with kind := kind, base := 0x1BFFF000, size := 0x1000 }
    WindowAsked profiled.win (windowP 15 1 base size) { bare .txRing with order := .big, profile := 3, queues := ⟨7, 3, 1, 15⟩ } ∧
      WindowAsked profiled.win (windowP 15 2 base size) { bare .rxStatus with order := .big, profile := 3 } ∧
      WindowAsked profiled.win (windowP 15 3 base size) { bare .frameBuffer with stride := 0x4000, headroom := 255 } ∧
      WindowAsked profiled.win (windowP 2 4 base size) { bare .peer with order := .big } := by
  have h : ∃ e, 8 ≤ e ∧ e ≤ 14 ∧ 0x4000 = 2 ^ e := ⟨14, by decide⟩
  refine ⟨⟨by decide, by decide, by decide, by decide, by decide, by decide, .inl (by decide)⟩,
    ⟨by decide, by decide, by decide, by decide, by decide, by decide, .inr (.inl (by decide))⟩,
    ⟨by decide, by decide, by decide, by decide, by decide, by decide, .inr (.inr (.inl ⟨by decide, by decide, h, by decide⟩))⟩,
    ⟨by decide, by decide, by decide, by decide, by decide, by decide, .inr (.inr (.inr (by decide)))⟩⟩

/-- The parameters of the two test profiles after their index. -/
def descP : List Byte := [3, 16, 0, 4, 6, 0, 7, 7, 1, 7, 0, 1]
def statusP : List Byte := [3, 16, 0, 6, 7, 0, 1, 7, 1, 1]

theorem witness_profiles_asked : DescAsked descP desc16 ∧ StatusAsked statusP status16 := by
  refine ⟨⟨by decide, by decide, by decide, by decide, by decide, by decide, by decide, by decide, by decide, by decide, by decide, by decide,
    by unfold Apart; decide, by decide, by decide, by decide, ?_⟩,
    ⟨by decide, by decide, by decide, by decide, by decide, by decide, by decide, by decide, by decide, by decide,
      by unfold Apart; decide, by decide, ?_⟩⟩
  · rintro b (rfl | rfl | rfl) <;> (unfold Apart; decide)
  · rintro b (rfl | rfl) <;> (unfold Apart; decide)

/-- The four commands, a slot and an index beyond each end, and an overlap with slot 0. -/
theorem witness_WindowsAndProfilesAreReplacedWhole :
    (let p := windowP 2 4 [0x00, 0x00, 0x00, 0x04] [0x00, 0x10, 0x00, 0x00]
     commanded (ordered 0x01 p profiled) 0x01 p = true ∧ param1 p 0 = (2 : Fin 16).val) ∧
      (∀ p ∈ [[1], [2], [15], [(16 : Byte)]], commanded (ordered 0x02 p running) 0x02 p = true) ∧
      commanded (ordered 0x03 descP running) 0x03 descP = true ∧ commanded (ordered 0x04 statusP running) 0x04 statusP = true ∧
      param1 descP 0 = (3 : Fin 4).val ∧ 4 ≤ param1 [(4 : Byte)] 0 ∧
      (running.win.slots[(0 : Fin 16)].kind ≠ .off ∧ 0x00F00000 < running.win.slots[(0 : Fin 16)].base + running.win.slots[(0 : Fin 16)].size ∧
        running.win.slots[(0 : Fin 16)].base < 0x00F00000 + 0x1000) := by decide

/-- Parameters of STATION_SET: index, MAC, schedule profile, roaming profile. -/
def stationP (i sched roam : Byte) (mac : List Byte) : List Byte := i :: mac ++ [sched, roam]

/-- The bytes of the MAC of the worked examples. -/
def mac4Bytes : List Byte := [0x02, 0x5A, 0x10, 0x6C, 0x33, 0xE1]

/-- The last index and profiles, and none; a group address; a MAC installed elsewhere; another MAC in the record; an update; an
installation with a carry entry of the day. -/
theorem witness_StationSetInstallsOrUpdates :
    (∀ p ∈ [stationP 127 15 3 mac4Bytes, stationP 4 255 0 mac4Bytes, stationP 128 255 0 mac4Bytes],
      commanded (ordered 0x05 p running) 0x05 p = true ∧ macAt p 1 = mac4) ∧
      param1 (stationP 127 15 3 mac4Bytes) 7 = (15 : Fin 16).val ∧ param1 (stationP 127 15 3 mac4Bytes) 8 = (3 : Fin 4).val ∧
      param1 (stationP 4 255 0 mac4Bytes) 7 = 255 ∧ isGroup mac4 = false ∧ mac4 ≠ 0 ∧ isGroup 0x010000000000#48 = true ∧
      (∀ j : Fin 128, running.sta.stations[j] = none) ∧ (having (plain mac4)).sta.stations[(4 : Fin 128)] = some (plain mac4) ∧
      (4 : Fin 128) ≠ 127 ∧ (plain 2).mac ≠ mac4 ∧
      ([⟨mac4, 7, 5, 0⟩].find? fun e : Carry => e.mac == mac4) = some ⟨mac4, 7, 5, 0⟩ ∧ 0 = running.sched.clock.minute / 1440 := by
  decide +kernel

theorem witness_StationClearRemovesFlowsFirst :
    (∀ p ∈ [[4], [127], [(128 : Byte)]], commanded (ordered 0x06 p running) 0x06 p = true) ∧
      (having (plain mac4)).sta.stations[(4 : Fin 128)] = some (plain mac4) ∧ running.sta.stations[(127 : Fin 128)] = none ∧
      (∀ n ∈ [0, 1, 16, 17, 32],
        (ordered 0x06 [4] (handing n .idle)).sta.stations[(4 : Fin 128)] = some { plain mac4 with state := .handoff, slot := some 0, deadline := 211 } ∧
        commanded (ordered 0x06 [4] (handing n .idle)) 0x06 [4] = true) ∧
      (let s := ordered 0x06 [4] { having (plain mac4) with cmd := { running.cmd with executing := .removing 4 } }
       s.cmd.executing = .removing 4 ∧ s.time.visitDue = false) ∧
      (let s := ordered 0x06 [4] { having (plain mac4) with cmd := { running.cmd with executing := .emptying 4 } }
       s.cmd.executing = .emptying 4 ∧ s.cmd.queue = [0x06, 0, 0x34, 0x12, 4] :: [] ∧ s.time.visitDue = false) := by decide

/-- Parameters of RULE_SET: slot 31, PROTOCOL equal 17, ANY_PORT equal 3074, URGENT with allowance 1023. -/
def ruleP : List Byte := [31, 3, 2, 17, 0, 2, 2, 0x02, 0x0C, 0, 0xFF, 0x03]

/-- The 13 bytes of the key of the worked examples' flow. -/
def keyBytes : List Byte := [17, 0x01, 0x01, 0xA8, 0xC0, 0x25, 0x01, 0xA8, 0xC0, 0x02, 0x0C, 0x38, 0xC7]

/-- An entry that alone holds a key; no entry that does. -/
theorem witness_key (cls : Machine.Class) : HoldsKey (flowing (flow0 cls 24 0)) 0 (flow0 cls 24 0) (flowKeyAt keyBytes 0) ∧
    KeyAbsent running (flowKeyAt keyBytes 0) := by
  have hk : flowKeyAt keyBytes 0 = (parseFrame 0 0 frameA).flowKey := by decide
  have hn : ∀ j : Fin 256, running.cls.flows[j] = none := by decide +kernel
  refine ⟨⟨rfl, hk.symm, fun j f hf _ => ?_⟩, fun j f hf => by rw [hn j] at hf; cases hf⟩
  by_cases h0 : j = 0
  · exact h0
  · exfalso
    have : (flowing (flow0 cls 24 0)).cls.flows[j] = running.cls.flows[j] := by
      have hv : (0 : Nat) ≠ j.val := fun h => h0 (Fin.ext h.symm)
      simp [flowing, putFlow, vput, hv]
    rw [this, hn j] at hf
    cases hf

theorem witness_RuleAndFlowCommandsActOnOneEntry :
    commanded (ordered 0x07 ruleP running) 0x07 ruleP = true ∧ param1 ruleP 0 = (31 : Fin 32).val ∧
      (CondAsked ruleP 1 ⟨.protocol, false, true, false, 17⟩ ∧ CondAsked ruleP 5 ⟨.anyPort, false, true, false, 3074⟩ ∧
        ClassAsked (param1 ruleP 9) (param2 ruleP 10) .urgent 1023) ∧ 32 ≤ param1 [(32 : Byte)] 0 ∧
      commanded (ordered 0x08 [31] running) 0x08 [31] = true ∧
      (∀ code ∈ [0x0A, 0x0B, (0x0C : Byte)], commanded (ordered code keyBytes (flowing (flow0 .demoted 24 0))) code.toNat keyBytes = true) := by
  unfold CondAsked ClassAsked; decide

/-- A pin of the key for an entry that is there, for one that is not, and with 64 entries pinned or all 256 taken. -/
theorem witness_FlowPinKeepsTheLimit :
    (let p := keyBytes ++ [0, 1, 0]
     commanded (ordered 0x09 p (flowing (flow0 .demoted 24 0))) 0x09 p = true ∧ ClassAsked (param1 p 13) (param2 p 14) .urgent 1 ∧
       pinnedCount (flowing (flow0 .demoted 24 0)).cls.flows < 64 ∧
       64 ≤ pinnedCount (Vector.replicate 256 (some { flow0 .normal 0 0 with pinned := true })) ∧
       (flowing (flow0 .demoted 24 0)).cls.flows[(1 : Fin 256)] = none ∧
       (∀ j : Fin 256, j < 1 → (flowing (flow0 .demoted 24 0)).cls.flows[j] ≠ none) ∧
       pinnedCount (Vector.replicate 256 (some (flow0 .normal 0 0))) = 0 ∧
       ∀ j : Fin 256, (Vector.replicate 256 (some (flow0 .normal 0 0)))[j] ≠ none) ∧
      ¬(∃ cls a, ClassAsked 0 0 cls a) ∧ ¬(∃ cls a, ClassAsked 0 1024 cls a) := by
  refine ⟨by unfold ClassAsked; decide +kernel, ?_, ?_⟩ <;> (rintro ⟨cls, a, h⟩; simp [ClassAsked] at h)

/-- The last profile, window and minutes; each beyond its range; and a pending commit that names the profile. -/
theorem witness_StagingWritesOnlyShadowCopies :
    (let p : List Byte := [15, 7, 0x7F, 0x9F, 0x05, 0xA0, 0x05, 2]
     commanded (ordered 0x10 p running) 0x10 p = true ∧ param1 p 0 = (15 : Fin 16).val ∧ param1 p 1 = (7 : Fin 8).val ∧ param1 p 2 < 128 ∧
       param2 p 3 = 1439 ∧ param2 p 5 = 1440 ∧ param1 p 7 = 2) ∧
      (∀ p ∈ [[15, 0xA0, 0x05, 1, 1], [15, 0xA1, 0x05, 0, 0], [0, 0, 0, 2, 0], [0, 0, 0, 0, (2 : Byte)]],
        commanded (ordered 0x11 p running) 0x11 p = true) ∧ param2 [15, 0xA0, 0x05, 1, 1] 1 ≤ 1440 ∧ 1440 < param2 [15, 0xA1, 0x05, 0, 0] 1 ∧
      (∀ p ∈ [[0, 0x80], [0, (0 : Byte)]], commanded (ordered 0x12 p running) 0x12 p = true) ∧ param2 [0, 0x80] 0 ≠ 0 ∧ param2 [0, 0] 0 = 0 ∧
      running.sched.commit = none ∧ (0x8000 : BitVec 16).getLsbD 15 = true := by decide

/-- GATE_SET on station 4, on ALL, out of range and with a wrong mask; GRANT of 1 and 240 minutes to a station with an allowance, of 241, and
to one without. -/
theorem witness_SoftwareActsOnTheGate :
    let prof := { SchedProfile.initial with allowance := 120 }
    let s := { having { plain mac4 with sched := some 1 } with sched := { running.sched with active := vput running.sched.active 1 prof } }
    commanded (ordered 0x13 [] s) 0x13 [] = true ∧
      (∀ p ∈ [[4, 8, 4], [255, 8, 4], [128, 0, 0], [4, 0x10, 0], [4, 8, (8 : Byte)]], commanded (ordered 0x14 p s) 0x14 p = true) ∧
      (∀ p ∈ [[4, 1], [4, 240], [4, 241], [4, 0], [128, (1 : Byte)]], commanded (ordered 0x15 p s) 0x15 p = true) ∧
      s.sta.stations[(4 : Fin 128)] = some { plain mac4 with sched := some 1 } ∧ 0 < dayAllowance s.sched.active (some 1) ∧
      dayAllowance running.sched.active (some 1) = 0 ∧ (0x10 : Byte).getLsbD 4 = true := by decide

/-- Parameters of ROAM_PROFILE_SET for index 3, every field at an end of its range. -/
def roamP : List Byte := [3, 0xD8, 15, 0xCE, 63, 30, 20, 6, 60, 255, 30, 30, 60, 3]

/-- Each command in range and out of it: node 7 and 8; a roaming profile; a HANDOFF_BEGIN from WATCH, from HOLDOFF with force, from HANDOFF;
a HANDOFF_DECLINE from CANDIDATE and from SETTLED. -/
theorem witness_SignalCommandsAct :
    (∀ p ∈ [[7], [(8 : Byte)]], commanded (ordered 0x17 p running) 0x17 p = true) ∧ commanded (ordered 0x18 roamP running) 0x18 roamP = true ∧
      roamProfileAt roamP 1 = some ⟨-40, 15, -50, 63, 30, 20, 6, 60, 255, 30, 30, 60, .both⟩ ∧ param1 roamP 0 = (3 : Fin 4).val ∧
      (∀ state ∈ [Roam.watch, .holdoff, .handoff], ∀ p ∈ [[4, 0x31, 0, 0], [4, 0x31, 0, 1], [4, 0x31, 0, 2], [128, 0x31, 0, (0 : Byte)]],
        commanded (ordered 0x19 p (having { plain mac4 with state := state, deadline := 9 })) 0x19 p = true) ∧
      running.hold.slots[(0 : Fin 16)] = .free ∧
      (∀ state ∈ [Roam.candidate, .settled],
        commanded (ordered 0x1A [4] (having { plain mac4 with state := state })) 0x1A [4] = true ∧
          (having { plain mac4 with state := state }).sta.stations[(4 : Fin 128)] = some { plain mac4 with state := state }) := by decide

/-- STAGE_BEGIN with length 2^24, 0 and 2^24 + 1, an older version, and while RECEIVING; STAGE_CANCEL from IDLE and from a sweep;
STAGE_VERIFY with shares 2, 64, 1 and 65; ACTIVATION_SET to the last minute with Q 10 and 600, disabled, and out of range. -/
theorem witness_ImageCommandsAct :
    let g (state : StagingState) (v : Option Sweep) := staging (staged state v (Vector.replicate 256 ⟨.complete, 16⟩)) running
    (∀ p ∈ [[0, 0, 0, 1, 1, 0, 0, 0, 7, 0, 0, 0, 0], [0, 0, 0, 0, 1, 0, 0, 0, 7, 0, 0, 0, 0], [1, 0, 0, 1, 1, 0, 0, 0, 7, 0, 0, 0, 0],
        [0, 0, 0, 1, 1, 0, 0, 0, 0, 0, 0, 0, (0 : Byte)]],
      commanded (ordered 0x1C p running) 0x1C p = true ∧ commanded (ordered 0x1C p (g .receiving none)) 0x1C p = true) ∧
      param4 [0, 0, 0, 1] 0 = 16777216 ∧ running.img.staging.state = .idle ∧ (g .receiving none).img.staging.state = .receiving ∧
      commanded (ordered 0x1D [] running) 0x1D [] = true ∧ commanded (ordered 0x1D [] (g .verifying (some (sweep (.reading 3))))) 0x1D [] = true ∧
      (∀ p ∈ [[2, 0], [64, 1], [1, 0], [65, 0], [2, (2 : Byte)]],
        commanded (ordered 0x1E p (g .complete none)) 0x1E p = true ∧ commanded (ordered 0x1E p running) 0x1E p = true) ∧
      (g .complete none).img.staging.bank = some .b ∧
      (∀ p ∈ [[0, 0x7F, 0x9F, 0x05, 0xA0, 0x05, 0x58, 0x02], [0, 1, 0, 0, 1, 0, 10, 0], [1], [2], [0, 0x80, 0, 0, 1, 0, 10, (0 : Byte)]],
        commanded (ordered 0x1F p running) 0x1F p = true) ∧ param2 [0x58, 0x02] 0 = 600 ∧ param2 [0xA0, 0x05] 0 = 1440 := by decide

/-- Every invariant holds in a state from which a step leads on: the one right after power-on, with an event in its queue. -/
theorem witness_EveryStepKeeps :
    let s := { State.reset with pending := [.resetRelease .por 0] }
    RingInv s ∧ HoldInv s ∧ CaptureInv s ∧ PathInv s ∧ ClockInv s ∧ StationInv s ∧ FlowInv s ∧ HandoffInv s ∧ WindowInv s ∧
      ∃ t, step s = .next t := by
  intro s
  have hs : ∀ i : Fin 128, s.sta.stations[i] = none := by decide +kernel
  have hf : ∀ i : Fin 256, s.cls.flows[i] = none := by decide +kernel
  have hk : ∀ k : Fin 16, s.hold.slots[k] = .free := by decide +kernel
  have h : RingInv s ∧ HoldInv s ∧ CaptureInv s ∧ PathInv s ∧ ClockInv s := by
    unfold RingInv HoldInv CaptureInv PathInv ClockInv PacingOk
    decide
  have hw : WindowInv s := by
    refine ⟨⟨0, by decide⟩, by decide, by decide, ?_, by decide⟩
    unfold WindowsApart; decide
  have hc : ∀ e ∈ s.sta.carry, e.used ≤ 1440 ∧ e.extra ≤ 240 := by intro e he; cases he
  have hp : pinnedCount s.cls.flows ≤ 64 := by decide +kernel
  refine ⟨h.1, h.2.1, h.2.2.1, h.2.2.2.1, h.2.2.2.2, ⟨fun i _ a _ ha => ?_, fun i a ha => ?_, hc, nofun⟩, ⟨fun i _ a _ ha => ?_, hp⟩,
    ⟨fun i a ha => ?_, fun k o ho => ?_, fun k h => ?_, fun i _ a ha => ?_, fun h => absurd rfl h⟩, hw, ⟨_, rfl⟩⟩
  · rw [hs i] at ha; cases ha
  · rw [hs i] at ha; cases ha
  · rw [hf i] at ha; cases ha
  · rw [hs i] at ha; cases ha
  · rw [hk k] at ho; cases ho
  · rcases h with h | ⟨i, h⟩ <;> cases h
  · rw [hs i] at ha; cases ha

end Sys2Proof.Tests
end

/-! SUPPORT. STATION_SET (R29 to R31): which of its ends the command takes, what an installation and an update leave in the station's
record, and the obligation O49. -/

namespace Sys2Proof.Machine

open Sys2Proof

/-! ### The operands and the checks (R29) -/

theorem schedOf_eq {n : Nat} {sched : Option (Fin 16)} (h : n = 255 ∧ sched = none ∨ ∃ k : Fin 16, n = k.val ∧ sched = some k) :
    schedOf n = some sched := by
  rcases h with ⟨rfl, rfl⟩ | ⟨k, rfl, rfl⟩
  · rfl
  · have hk : k.val ≠ 255 := by omega
    simp [schedOf, hk, indexOf_val]

theorem schedOf_none {n : Nat} (h : 16 ≤ n) (hn : n ≠ 255) : schedOf n = none := by simp [schedOf, hn, indexOf_none h]

/-- The operands of a STATION_SET that pass the range checks of R29. -/
structure StationAsked (p : List Byte) (i : Fin 128) (sched : Option (Fin 16)) (roam : Fin 4) : Prop where
  index : param1 p 0 = i.val
  sched : param1 p 7 = 255 ∧ sched = none ∨ ∃ k : Fin 16, param1 p 7 = k.val ∧ sched = some k
  roam  : param1 p 8 = roam.val
  group : isGroup (macAt p 1) = false
  zero  : macAt p 1 ≠ 0

theorem stationSet_outOfRange {p : List Byte} (s : State)
    (h : 128 ≤ param1 p 0 ∨ (16 ≤ param1 p 7 ∧ param1 p 7 ≠ 255) ∨ 4 ≤ param1 p 8 ∨ isGroup (macAt p 1) = true ∨ macAt p 1 = 0) :
    stationSet p s = refuse .refusedRange s := by
  unfold stationSet
  split
  · next i prof roam hi hp hr =>
    rcases h with h | ⟨h, hn⟩ | h | hg | hz
    · rw [indexOf_none h] at hi; cases hi
    · rw [schedOf_none h hn] at hp; cases hp
    · rw [indexOf_none h] at hr; cases hr
    · simp only [hg, Bool.true_or, if_true]
    · simp only [hz, beq_self_eq_true, Bool.or_true, if_true]
  · rfl

/-- With its operands in range, the command is decided by the MAC's place in the Station Table. -/
theorem stationSet_asked {p : List Byte} {i : Fin 128} {sched : Option (Fin 16)} {roam : Fin 4} (h : StationAsked p i sched roam)
    (s : State) :
    stationSet p s =
      if macElsewhere s.sta.stations i (macAt p 1) then refuse .refusedDuplicate s
      else (s.sta.stations[i]).elim (installStation i (macAt p 1) sched roam s)
        fun st => if st.mac = macAt p 1 then updateStation i sched roam s else refuse .refusedState s := by
  simp only [stationSet, indexOf_eq h.index, schedOf_eq h.sched, indexOf_eq h.roam, h.group, beq_eq_false_iff_ne.2 h.zero, Bool.or_self,
    Bool.false_eq_true, if_false]
  cases s.sta.stations[i] <;> rfl

theorem macElsewhere_iff (stations : Vector (Option Station) 128) (i : Fin 128) (mac : Mac) :
    macElsewhere stations i mac = true ↔ ∃ j x, j ≠ i ∧ stations[j] = some x ∧ x.mac = mac := by
  simp [macElsewhere, Option.any_eq_true]

/-! ### The schedule part of the gate (R30 steps 2 and 3, R31) -/

theorem overLimit_iff (active : Vector SchedProfile 16) (st : Station) :
    overLimit active st = true ↔
      0 < dayAllowance active st.sched ∧ min (dayAllowance active st.sched + st.extra) 1440 ≤ st.used := by
  simp [overLimit, Station.limit, allowanceOf_eq]

/-- The schedule part of the gate writes two reasons and two flags. -/
theorem scheduleGate_eq (sched : Schedule) (st : Station) :
    scheduleGate sched st = { st with
      reasons := { st.reasons with
        window := (scheduleGate sched st).reasons.window, allowance := (scheduleGate sched st).reasons.allowance },
      noUrgent := (scheduleGate sched st).noUrgent, free := (scheduleGate sched st).free } := by
  obtain ⟨w, n, f, h⟩ := evaluate_frame sched.clock sched.active st
  simp only [scheduleGate, h, Station.withWindow, Station.withAllowance]

theorem scheduleGate_sched (sched : Schedule) (st : Station) : (scheduleGate sched st).sched = st.sched := by rw [scheduleGate_eq]
theorem scheduleGate_used (sched : Schedule) (st : Station) : (scheduleGate sched st).used = st.used := by rw [scheduleGate_eq]
theorem scheduleGate_extra (sched : Schedule) (st : Station) : (scheduleGate sched st).extra = st.extra := by rw [scheduleGate_eq]

theorem scheduleGate_windowEvaluated (sched : Schedule) (st : Station) :
    WindowEvaluated sched.clock sched.active (scheduleGate sched st) := evaluate_spec sched.clock sched.active st

theorem scheduleGate_allowance (sched : Schedule) (st : Station) :
    (scheduleGate sched st).reasons.allowance = true ↔
      0 < dayAllowance sched.active st.sched ∧ min (dayAllowance sched.active st.sched + st.extra) 1440 ≤ st.used :=
  overLimit_iff sched.active st

/-! ### The record that an installation leaves (R30) -/

/-- Carry restore writes the two minute counts. -/
theorem restoreCarry_eq (carry : List Carry) (day : Nat) (st : Station) :
    restoreCarry carry day st = { st with used := (restoreCarry carry day st).used, extra := (restoreCarry carry day st).extra } := by
  unfold restoreCarry
  split
  · rfl
  · split <;> rfl

theorem restoreCarry_today {carry : List Carry} {day : Nat} {st : Station} {e : Carry}
    (h : (carry.find? fun e => e.mac == st.mac) = some e) (hd : e.day = day) :
    restoreCarry carry day st = { st with used := e.used, extra := e.extra } := by
  simp only [restoreCarry, h, hd, if_true]

theorem restoreCarry_notToday {carry : List Carry} {day : Nat} {st : Station}
    (h : ∀ e, (carry.find? fun e => e.mac == st.mac) = some e → e.day ≠ day) : restoreCarry carry day st = st := by
  unfold restoreCarry
  split
  · rfl
  · next e he => rw [if_neg (h e he)]

theorem lineAtInstall_iff (sched : Schedule) (st : Station) :
    lineAtInstall sched st = true ↔ sched.line.mode = .pause ∧ sched.line.level = sched.line.assertedHigh ∧
      ∃ k, st.sched = some k ∧ (sched.active[k]).lineTrigger = true := by
  simp [lineAtInstall, Line.asserted, lineAffects, profileOf, Option.any_eq_true, and_assoc]

section Installed

variable (sched : Schedule) (carry : List Carry) (mac : Mac) (prof : Option (Fin 16)) (roam : Fin 4)

/-- A new record after carry restore: step 1 of R30. -/
def restored : Station := restoreCarry carry sched.clock.day (newStation mac prof roam)

theorem restored_eq : restored sched carry mac prof roam = { newStation mac prof roam with
    used := (restored sched carry mac prof roam).used, extra := (restored sched carry mac prof roam).extra } := restoreCarry_eq ..

/-- An installation is carry restore, the schedule part of the gate, and the LINE reason. -/
theorem installed_restored : installed sched carry mac prof roam =
    { scheduleGate sched (restored sched carry mac prof roam) with
      reasons := { (scheduleGate sched (restored sched carry mac prof roam)).reasons with
        line := lineAtInstall sched (scheduleGate sched (restored sched carry mac prof roam)) } } := rfl

/-- The fields that an installation computes; every other field has its first value, and HOST is clear. -/
theorem installed_eq : installed sched carry mac prof roam = { newStation mac prof roam with
    reasons := ⟨(installed sched carry mac prof roam).reasons.window, (installed sched carry mac prof roam).reasons.allowance,
      (installed sched carry mac prof roam).reasons.line, false⟩,
    noUrgent := (installed sched carry mac prof roam).noUrgent, free := (installed sched carry mac prof roam).free,
    used := (installed sched carry mac prof roam).used, extra := (installed sched carry mac prof roam).extra } := by
  rw [installed_restored, scheduleGate_eq, restored_eq]
  rfl

theorem restored_sched : (restored sched carry mac prof roam).sched = prof := by rw [restored_eq]; rfl

theorem installed_used : (installed sched carry mac prof roam).used = (restored sched carry mac prof roam).used := scheduleGate_used ..
theorem installed_extra : (installed sched carry mac prof roam).extra = (restored sched carry mac prof roam).extra :=
  scheduleGate_extra ..

theorem installed_windowEvaluated : WindowEvaluated sched.clock sched.active (installed sched carry mac prof roam) :=
  scheduleGate_windowEvaluated sched (restored sched carry mac prof roam)

theorem installed_minutes_today {e : Carry} (h : (carry.find? fun e => e.mac == mac) = some e) (hd : e.day = sched.clock.minute / 1440) :
    (installed sched carry mac prof roam).used = e.used ∧ (installed sched carry mac prof roam).extra = e.extra := by
  rw [installed_used, installed_extra, restored, restoreCarry_today (day := sched.clock.day) (st := newStation mac prof roam) h hd]
  exact ⟨rfl, rfl⟩

theorem installed_minutes_notToday
    (h : ∀ e, (carry.find? fun e => e.mac == mac) = some e → e.day ≠ sched.clock.minute / 1440) :
    (installed sched carry mac prof roam).used = 0 ∧ (installed sched carry mac prof roam).extra = 0 := by
  rw [installed_used, installed_extra, restored, restoreCarry_notToday (day := sched.clock.day) (st := newStation mac prof roam) h]
  exact ⟨rfl, rfl⟩

theorem installed_allowance : (installed sched carry mac prof roam).reasons.allowance = true ↔
    0 < dayAllowance sched.active prof ∧
      min (dayAllowance sched.active prof + (installed sched carry mac prof roam).extra) 1440 ≤
        (installed sched carry mac prof roam).used := by
  have h := scheduleGate_allowance sched (restored sched carry mac prof roam)
  rw [restored_sched] at h
  rw [installed_used, installed_extra]
  exact h

theorem installed_line : (installed sched carry mac prof roam).reasons.line = true ↔
    sched.line.mode = .pause ∧ sched.line.level = sched.line.assertedHigh ∧
      ∃ k, prof = some k ∧ (sched.active[k]).lineTrigger = true := by
  have h := lineAtInstall_iff sched (scheduleGate sched (restored sched carry mac prof roam))
  rw [scheduleGate_sched, restored_sched] at h
  exact h

end Installed

/-! ### The command -/

theorem exec_stationSet {s : State} {p : List Byte} {d : Done} (hc : commanded s 0x05 p = true) (h : stationSet p s = d) :
    exec .stationSet s = .next (completeCommand d.status d.result d.state) := by
  change execStationSet s = _
  unfold execStationSet
  rw [runCommand_commanded hc, atOnce_eq h]

/-- A command that writes the Station Table, offers reports and ends DONE. -/
theorem endsWith_staWritten (x : StationTable) (rs : List Report) (s : State) :
    EndsWith [.sta] rs .done [] s (completeCommand .done [] (offerAll rs { s with sta := x })) :=
  EndsWith.intro rs .done [] ⟨rfl, rfl, rfl, rfl⟩ rfl fun b hb => by
    cases b with
    | sta => exact absurd (List.mem_singleton_self _) hb
    | _ => rfl

/-- The report that an installation offers. -/
def installReports (i : Fin 128) (st : Station) : List Report :=
  if st.closed = true then [.gateChange .stationSet i true st.reasons] else []

/-- The Station Table after an installation. -/
def installedTable (i : Fin 128) (mac : Mac) (prof : Option (Fin 16)) (roam : Fin 4) (s : State) : StationTable :=
  { stations := vput s.sta.stations i (some (installed s.sched s.sta.carry mac prof roam)),
    unknown := s.sta.unknown.filter fun m => m != mac, carry := s.sta.carry.filter fun e => e.mac != mac }

theorem installStation_eq (i : Fin 128) (mac : Mac) (prof : Option (Fin 16)) (roam : Fin 4) (s : State) :
    installStation i mac prof roam s =
      done (offerAll (installReports i (installed s.sched s.sta.carry mac prof roam))
        { s with sta := installedTable i mac prof roam s }) := by
  simp only [installStation, installReports]
  split <;> rfl

/-- The Station Table after an update of the profiles. -/
def updatedTable (i : Fin 128) (prof : Option (Fin 16)) (roam : Fin 4) (s : State) : StationTable :=
  (modStation i (fun st => scheduleGate s.sched { st with sched := prof, roam := roam }) s).sta

theorem updatedTable_at (i j : Fin 128) (prof : Option (Fin 16)) (roam : Fin 4) (s : State) :
    (updatedTable i prof roam s).stations[j] =
      if j = i then (s.sta.stations[i]).map fun st => scheduleGate s.sched { st with sched := prof, roam := roam }
      else s.sta.stations[j] := modStation_at ..

theorem updateStation_eq (i : Fin 128) (prof : Option (Fin 16)) (roam : Fin 4) (s : State) :
    updateStation i prof roam s =
      done (offerAll (gateReports .stationSet s.sta.stations (updatedTable i prof roam s).stations)
        { s with sta := updatedTable i prof roam s }) := by
  simp only [updateStation, reportGates, gateChanges_eq]
  rfl

/-- Settles O49: each end of the command by the check that decides it (`stationSet_asked`), with the record of an installation
(`installed_eq`) or of an update (`scheduleGate_eq`). -/
theorem stationSetInstallsOrUpdates : Obligations.StationSetInstallsOrUpdates := by
  intro s p hc
  refine ⟨fun hbad => ⟨_, exec_stationSet hc (stationSet_outOfRange s hbad), TurnedAway.intro _ s⟩, ?_⟩
  intro i sched roam hi hsched hroam hg hz
  have hask := stationSet_asked ⟨hi, hsched, hroam, hg, hz⟩ s
  refine ⟨_, exec_stationSet hc rfl, fun he => ?duplicate, fun hne st hst hmac => ?occupied, fun hne hst => ?install,
    fun hne st hst hmac => ?update⟩
  case duplicate =>
    rw [hask, if_pos ((macElsewhere_iff ..).2 he)]
    exact TurnedAway.intro _ s
  all_goals rw [if_neg (mt (macElsewhere_iff ..).1 hne), hst] at hask
  case occupied =>
    rw [hask, Option.elim_some, if_neg hmac]
    exact TurnedAway.intro _ s
  case install =>
    rw [hask, Option.elim_none, installStation_eq]
    simp only [done, completeCommand_sta, offerAll_sta]
    refine ⟨rfl, rfl, fun j hj => ?_, installed s.sched s.sta.carry (macAt p 1) sched roam, vput_same .., installed_windowEvaluated ..,
      installed_eq .., fun _ => installed_minutes_today _ _ _ _ _, installed_minutes_notToday _ _ _ _ _, installed_allowance .., installed_line ..,
      endsWith_staWritten ..⟩
    simp only [completeCommand_sta, offerAll_sta]
    exact vput_ne _ _ _ _ hj
  case update =>
    rw [hask, Option.elim_some, if_pos hmac, updateStation_eq]
    simp only [done, completeCommand_sta, offerAll_sta]
    refine ⟨rfl, rfl, fun j hj => ?_, scheduleGate s.sched { st with sched := sched, roam := roam }, ?_, scheduleGate_windowEvaluated ..,
      scheduleGate_eq .., scheduleGate_allowance .., endsWith_staWritten ..⟩
    · rw [completeCommand_sta, offerAll_sta]
      exact (updatedTable_at ..).trans (if_neg hj)
    · rw [updatedTable_at, if_pos rfl, hst]
      rfl

end Sys2Proof.Machine

/-! SUPPORT. SCHEDULE_EVALUATE, GATE_SET and GRANT (R57 to R59): the end of a command that writes the Station Table and reports the gate
changes, what each command makes of a station's record, and the obligation O54. -/

namespace Sys2Proof.Machine

open Sys2Proof

/-! ### A command that answers at once -/

theorem atOnce_refused {f : List Byte → State → Done} {p : List Byte} {s : State} {status : Status} (h : f p s = refuse status s) :
    TurnedAway status s (atOnce f p s) := by
  rw [atOnce_eq h]
  exact TurnedAway.intro status s

/-- A command has left `x` as the Station Table and reported the gate changes (R49); its COMPLETION, DONE, follows them. -/
structure GateWritten (cause : GateCause) (x : StationTable) (s t : State) : Prop where
  sta  : t.sta = x
  ends : EndsWith [.sta] (gateReports cause s.sta.stations t.sta.stations) .done [] s t

theorem atOnce_gateWritten {f : List Byte → State → Done} {p : List Byte} {s : State} {cause : GateCause} {x : StationTable}
    (h : f p s = done (reportGates cause s.sta.stations { s with sta := x })) : GateWritten cause x s (atOnce f p s) := by
  have heq : atOnce f p s = completeCommand .done [] (offerAll (gateReports cause s.sta.stations x.stations) { s with sta := x }) := by
    rw [atOnce_eq h, reportGates, gateChanges_eq]
    rfl
  have hsta : (atOnce f p s).sta = x := by rw [heq, completeCommand_sta, offerAll_sta]
  refine ⟨hsta, ?_⟩
  rw [hsta, heq]
  exact endsWith_staWritten x _ s

namespace GateWritten

variable {cause : GateCause} {f : Station → Station} {i : Fin 128} {s t : State}

/-- After a change of every installed station. -/
theorem every_at (h : GateWritten cause (mapStations f s).sta s t) (j : Fin 128) :
    t.sta.stations[j] = (s.sta.stations[j]).map f := by
  rw [h.sta]
  exact mapStations_at f s j

/-- After a change of one station. -/
theorem one_at (h : GateWritten cause (modStation i f s).sta s t) {st : Station} (hst : s.sta.stations[i] = some st) :
    t.sta.stations[i] = some (f st) := by
  rw [h.sta, modStation_at, if_pos rfl, hst]
  rfl

theorem one_othersKept (h : GateWritten cause (modStation i f s).sta s t) : OthersKept i s t := by
  intro j hj
  rw [h.sta, modStation_at, if_neg hj]

theorem unknown_kept {v : Vector (Option Station) 128} (h : GateWritten cause { s.sta with stations := v } s t) :
    t.sta.unknown = s.sta.unknown := by rw [h.sta]

theorem carry_kept {v : Vector (Option Station) 128} (h : GateWritten cause { s.sta with stations := v } s t) :
    t.sta.carry = s.sta.carry := by rw [h.sta]

end GateWritten

/-! ### SCHEDULE_EVALUATE (R57) -/

theorem exec_scheduleEvaluate {s : State} {p : List Byte} (hc : commanded s 0x13 p = true) :
    exec .scheduleEvaluate s = .next (atOnce scheduleEvaluate p s) := congrArg Host.Outcome.next (runCommand_commanded hc _)

theorem scheduleEvaluate_written (p : List Byte) (s : State) :
    GateWritten .evaluate (mapStations (evaluate s.sched.clock s.sched.active) s).sta s (atOnce scheduleEvaluate p s) :=
  atOnce_gateWritten rfl

/-! ### GATE_SET (R59) -/

theorem exec_gateSet {s : State} {p : List Byte} (hc : commanded s 0x14 p = true) :
    exec .gateSet s = .next (atOnce gateSet p s) := congrArg Host.Outcome.next (runCommand_commanded hc _)

/-- A mask has a bit beside LINE and HOST, or the two masks share a bit (R59). -/
def MasksWrong (set clear : Byte) : Prop :=
  ∃ b, b < 8 ∧ (b ≠ 2 ∧ b ≠ 3 ∧ (set.getLsbD b = true ∨ clear.getLsbD b = true) ∨
    set.getLsbD b = true ∧ clear.getLsbD b = true)

theorem byte_and_eq_zero_iff (x y : Byte) : x &&& y = 0 ↔ ∀ b, b < 8 → ¬(x.getLsbD b = true ∧ y.getLsbD b = true) := by
  simp [BitVec.eq_of_getLsbD_eq_iff]

/-- The mask of the bits that GATE_SET may not name. -/
theorem getLsbD_notGateBits {b : Nat} (hb : b < 8) : (0xF3#8).getLsbD b = true ↔ b ≠ 2 ∧ b ≠ 3 := by
  decide +revert

theorem masksOk_iff (set clear : Byte) : masksOk set clear = true ↔ ¬MasksWrong set clear := by
  simp only [masksOk, Bool.and_eq_true, beq_iff_eq, byte_and_eq_zero_iff, MasksWrong, not_exists]
  constructor
  · rintro ⟨⟨hset, hclear⟩, hboth⟩ b ⟨hb, ⟨h2, h3, hs | hc⟩ | hsc⟩
    · exact hset b hb ⟨hs, (getLsbD_notGateBits hb).2 ⟨h2, h3⟩⟩
    · exact hclear b hb ⟨hc, (getLsbD_notGateBits hb).2 ⟨h2, h3⟩⟩
    · exact hboth b hb hsc
  · intro h
    refine ⟨⟨fun b hb hs => h b ⟨hb, .inl ?_⟩, fun b hb hc => h b ⟨hb, .inl ?_⟩⟩, fun b hb hsc => h b ⟨hb, .inr hsc⟩⟩
    · obtain ⟨h2, h3⟩ := (getLsbD_notGateBits hb).1 hs.2
      exact ⟨h2, h3, .inl hs.1⟩
    · obtain ⟨h2, h3⟩ := (getLsbD_notGateBits hb).1 hc.2
      exact ⟨h2, h3, .inr hc.1⟩

section GateSet

variable {p : List Byte} (s : State)

theorem gateSet_outOfRange (h : MasksWrong (byteAt p 1) (byteAt p 2) ∨ (128 ≤ param1 p 0 ∧ param1 p 0 ≠ 255)) :
    gateSet p s = refuse .refusedRange s := by
  by_cases hm : MasksWrong (byteAt p 1) (byteAt p 2)
  · simp only [gateSet, masksOk_iff, hm, not_true_eq_false, if_false]
  · obtain ⟨hi, hall⟩ := h.resolve_left hm
    simp only [gateSet, masksOk_iff, hm, not_false_eq_true, if_true, hall, if_false, indexOf_none hi]

theorem gateSet_all (hm : ¬MasksWrong (byteAt p 1) (byteAt p 2)) (hall : param1 p 0 = 255) :
    GateWritten .gateSet (mapStations (applyMasks (byteAt p 1) (byteAt p 2)) s).sta s (atOnce gateSet p s) :=
  atOnce_gateWritten (by simp only [gateSet, masksOk_iff, hm, not_false_eq_true, if_true, hall]; rfl)

/-- With masks that may be given, one station named is changed when it is installed. -/
theorem gateSet_one {i : Fin 128} (hm : ¬MasksWrong (byteAt p 1) (byteAt p 2)) (hi : param1 p 0 = i.val) :
    gateSet p s = (s.sta.stations[i]).elim (refuse .refusedState s)
      fun _ => done (reportGates .gateSet s.sta.stations (modStation i (applyMasks (byteAt p 1) (byteAt p 2)) s)) := by
  have hall : param1 p 0 ≠ 255 := by omega
  simp only [gateSet, masksOk_iff, hm, not_false_eq_true, if_true, hall, if_false, indexOf_eq hi]
  cases s.sta.stations[i] <;> rfl

end GateSet

/-! ### GRANT (R58) -/

theorem exec_grant {s : State} {p : List Byte} (hc : commanded s 0x15 p = true) :
    exec .grant s = .next (atOnce grant p s) := congrArg Host.Outcome.next (runCommand_commanded hc _)

theorem clearAllowance_eq (c : Prop) [Decidable c] (st : Station) :
    (if c then st.withAllowance false else st) = st.withAllowance (if c then false else st.reasons.allowance) := by
  split <;> rfl

theorem clearLowSent_eq (c : Prop) [Decidable c] (st : Station) :
    (if c then { st with lowSent := false } else st) = { st with lowSent := if c then false else st.lowSent } := by
  split <;> rfl

/-- A grant writes the extra minutes, the ALLOWANCE reason and the flag of ALLOWANCE_LOW, by the limit that the new extra minutes give. -/
theorem grantStation_eq (a minutes : Nat) (st : Station) : grantStation a minutes st =
    (let extra := min (st.extra + minutes) 240
     let limit := min (a + extra) 1440
     { st with
       extra := extra,
       reasons := { st.reasons with allowance := if st.used < limit then false else st.reasons.allowance },
       lowSent := if 5 < limit - st.used then false else st.lowSent }) := by
  simp only [grantStation, clearAllowance_eq, clearLowSent_eq]
  rfl

section Grant

variable {p : List Byte} (s : State)

theorem grant_outOfRange (h : 128 ≤ param1 p 0 ∨ param1 p 1 = 0 ∨ 240 < param1 p 1) : grant p s = refuse .refusedRange s := by
  by_cases hi : 128 ≤ param1 p 0
  · simp only [grant, indexOf_none hi]
  · have hminutes : ¬(1 ≤ param1 p 1 ∧ param1 p 1 ≤ 240) := by omega
    simp only [grant, if_neg hminutes]
    split <;> rfl

/-- With its operands in range, a grant acts on an installed station under an allowance. -/
theorem grant_asked {i : Fin 128} (hi : param1 p 0 = i.val) (h1 : 1 ≤ param1 p 1) (h240 : param1 p 1 ≤ 240) :
    grant p s = (s.sta.stations[i]).elim (refuse .refusedState s) fun st =>
      if dayAllowance s.sched.active st.sched = 0 then refuse .refusedState s
      else done (reportGates .grant s.sta.stations
        (modStation i (grantStation (dayAllowance s.sched.active st.sched) (param1 p 1)) s)) := by
  simp only [grant, indexOf_eq hi, h1, h240, and_self, if_true, allowanceOf_eq]
  cases s.sta.stations[i] <;> rfl

end Grant

/-! ### The obligation -/

/-- Settles O54: each refusal by the check that decides it, each other end by the table that the command writes (`GateWritten`) and the
record that it leaves (`evaluate_eq`, `applyMasks`, `grantStation_eq`). -/
theorem softwareActsOnTheGate : Obligations.SoftwareActsOnTheGate := by
  refine ⟨fun s p hc => ?evaluate, fun s p hc => ?gateSet, fun s p hc => ⟨fun hbad => ?grantRange, fun i hi h1 h240 => ?grant⟩⟩
  case evaluate =>
    have h := scheduleEvaluate_written p s
    refine ⟨_, exec_scheduleEvaluate hc, h.ends, h.unknown_kept, h.carry_kept, fun i hi => ?_, fun i st hst => ?_⟩
    · rw [h.every_at, hi]
      rfl
    · exact ⟨evaluate s.sched.clock s.sched.active st, by rw [h.every_at, hst]; rfl, evaluate_spec .., evaluate_eq ..⟩
  case gateSet =>
    refine ⟨_, exec_gateSet hc, fun hbad => atOnce_refused (gateSet_outOfRange s hbad), fun hm hall => ?_,
      fun i hm hi => ⟨fun hst => ?_, fun st hst => ?_⟩⟩
    · have h := gateSet_all s hm hall
      exact ⟨h.ends, h.unknown_kept, h.carry_kept, h.every_at⟩
    · exact atOnce_refused ((gateSet_one s hm hi).trans (by rw [hst]; rfl))
    · have h : GateWritten .gateSet (modStation i (applyMasks (byteAt p 1) (byteAt p 2)) s).sta s (atOnce gateSet p s) :=
        atOnce_gateWritten ((gateSet_one s hm hi).trans (by rw [hst]; rfl))
      exact ⟨h.ends, h.unknown_kept, h.carry_kept, h.one_othersKept, h.one_at hst⟩
  case grantRange => exact ⟨_, exec_grant hc, atOnce_refused (grant_outOfRange s hbad)⟩
  case grant =>
    have hgrant := grant_asked s hi h1 h240
    refine ⟨fun hno => ⟨_, exec_grant hc, atOnce_refused (hgrant.trans ?_)⟩, fun st hst hpos => ⟨_, exec_grant hc, ?_⟩⟩
    · rcases hno with hst | ⟨st, hst, hzero⟩
      · rw [hst, Option.elim_none]
      · rw [hst, Option.elim_some, if_pos hzero]
    · have h : GateWritten .grant (modStation i (grantStation (dayAllowance s.sched.active st.sched) (param1 p 1)) s).sta s
          (atOnce grant p s) := atOnce_gateWritten (hgrant.trans (by rw [hst, Option.elim_some, if_neg hpos.ne']; rfl))
      exact ⟨h.ends, h.unknown_kept, h.carry_kept, h.one_othersKept, (h.one_at hst).trans (congrArg some (grantStation_eq ..))⟩

end Sys2Proof.Machine

/-! SUPPORT. RULE_SET, RULE_CLEAR and the flow commands (R66, R75, R78 to R80): the operands they decode, the searches of the Flow Table,
the end of a command that writes the Classifier, and the obligations O51 and O52. -/

namespace Sys2Proof.Machine

open Sys2Proof

/-! ### Searches -/

theorem vfind_eq_some {α : Type} {n : Nat} {p : α → Bool} {v : Vector α n} {i : Fin n} (h : p v[i] = true)
    (hlow : ∀ j : Fin n, j < i → p v[j] = false) : vfind p v = some i := by
  cases hv : vfind p v with
  | none => rw [vfind_none.1 hv i] at h; cases h
  | some j =>
    rcases (vfind_least hv h).lt_or_eq with hlt | rfl
    · exact absurd ((hlow j hlt).symm.trans (vfind_some hv)) Bool.false_ne_true
    · rfl

theorem flowHasKey_iff {o : Option Flow} {key : FlowKey} : (o.any fun e => e.key == key) = true ↔ ∃ e, o = some e ∧ e.key = key := by
  simp [Option.any_eq_true]

theorem findFlow_absent {s : State} {key : FlowKey} (h : KeyAbsent s key) : findFlow s.cls.flows key = none := by
  refine vfind_none.2 fun j => Bool.eq_false_iff.2 fun hj => ?_
  obtain ⟨f, hf, hk⟩ := flowHasKey_iff.1 hj
  exact h j f hf hk

theorem findFlow_held {s : State} {i : Fin 256} {e : Flow} {key : FlowKey} (h : HoldsKey s i e key) :
    findFlow s.cls.flows key = some i := by
  obtain ⟨hi, hk, honly⟩ := h
  refine vfind_eq_some (flowHasKey_iff.2 ⟨e, hi, hk⟩) fun j hj => Bool.eq_false_iff.2 fun hjk => ?_
  obtain ⟨f, hf, hfk⟩ := flowHasKey_iff.1 hjk
  exact hj.ne (honly j f hf hfk)

/-! ### The place of a new entry (R75) -/

section Place

variable {flows : Vector (Option Flow) 256} {i : Fin 256} {e : Flow}

theorem freeFlow_lowest (hi : flows[i] = none) (hlow : ∀ j : Fin 256, j < i → flows[j] ≠ none) : freeFlow flows = some i :=
  vfind_eq_some (by rw [hi]; rfl) fun j hj => Option.isNone_eq_false_iff.2 (Option.isSome_iff_ne_none.2 (hlow j hj))

theorem freeFlow_full (h : ∀ j : Fin 256, flows[j] ≠ none) : freeFlow flows = none :=
  vfind_none.2 fun j => Option.isNone_eq_false_iff.2 (Option.isSome_iff_ne_none.2 (h j))

/-- A flow displaces the best victim so far, if any: that victim was seen later. -/
def Displaces (flows : Vector (Option Flow) 256) (e : Flow) (best : Option (Fin 256)) : Prop :=
  ∀ j, best = some j → ∃ f, flows[j] = some f ∧ e.lastSeen < f.lastSeen

/-- The unpinned entry with the oldest last-seen, the lowest index among equals. -/
structure OldestUnpinned (flows : Vector (Option Flow) 256) (i : Fin 256) (e : Flow) : Prop where
  entry    : flows[i] = some e
  unpinned : e.pinned = false
  oldest   : ∀ (j : Fin 256) (f : Flow), flows[j] = some f → f.pinned = false →
    e.lastSeen < f.lastSeen ∨ e.lastSeen = f.lastSeen ∧ i ≤ j

theorem betterVictim_taken (hi : flows[i] = some e) (hp : e.pinned = false) {best : Option (Fin 256)} (h : Displaces flows e best) :
    betterVictim flows best i = some i := by
  cases best with
  | none => simp [betterVictim, hi, hp]
  | some j =>
    obtain ⟨f, hf, hlt⟩ := h j rfl
    simp [betterVictim, hi, hp, hf, hlt]

/-- An entry considered either leaves the best victim as it is, or is unpinned and takes its place. -/
theorem betterVictim_cases (flows : Vector (Option Flow) 256) (best : Option (Fin 256)) (j : Fin 256) :
    betterVictim flows best j = best ∨
      betterVictim flows best j = some j ∧ ∃ f, flows[j] = some f ∧ f.pinned = false := by
  unfold betterVictim
  split
  · exact .inl rfl
  · next f hf =>
    split
    · exact .inl rfl
    · next hp =>
      have htaken := And.intro hf (Bool.eq_false_iff.2 hp)
      split
      · exact .inr ⟨rfl, f, htaken⟩
      · split
        · exact .inr ⟨rfl, f, htaken⟩
        · exact .inl rfl

/-- While only later-seen flows are met, the flow displaces the best of them. -/
theorem foldl_betterVictim_displaced {l : List (Fin 256)} {best : Option (Fin 256)} (hb : Displaces flows e best)
    (hl : ∀ j ∈ l, ∀ f, flows[j] = some f → f.pinned = false → e.lastSeen < f.lastSeen) :
    Displaces flows e (l.foldl (betterVictim flows) best) := by
  induction l generalizing best with
  | nil => exact hb
  | cons j l ih =>
    refine ih ?_ fun k hk => hl k (List.mem_cons_of_mem j hk)
    rcases betterVictim_cases flows best j with h | ⟨h, f, hf, hp⟩
    · rwa [h]
    · rw [h]
      rintro k ⟨⟩
      exact ⟨f, hf, hl j List.mem_cons_self f hf hp⟩

/-- Once chosen, a flow stays chosen while no older-seen one is met. -/
theorem foldl_betterVictim_kept {l : List (Fin 256)} (hi : flows[i] = some e)
    (hl : ∀ j ∈ l, ∀ f, flows[j] = some f → f.pinned = false → e.lastSeen ≤ f.lastSeen) :
    l.foldl (betterVictim flows) (some i) = some i := by
  induction l with
  | nil => rfl
  | cons j l ih =>
    have hj : betterVictim flows (some i) j = some i := by
      unfold betterVictim
      split
      · rfl
      · next f hf =>
        cases hp : f.pinned with
        | true => rfl
        | false => simp [hi, (hl j List.mem_cons_self f hf hp).not_gt]
    rw [List.foldl_cons, hj]
    exact ih fun k hk => hl k (List.mem_cons_of_mem j hk)

theorem victim_oldest (h : OldestUnpinned flows i e) : victim flows = some i := by
  obtain ⟨before, after, hsplit⟩ := List.append_of_mem (List.mem_finRange i)
  have hsorted : List.Pairwise (· < ·) (List.finRange 256) := List.pairwise_lt_finRange 256
  rw [hsplit, List.pairwise_append] at hsorted
  obtain ⟨-, -, hbefore⟩ := hsorted
  have hdisplaces : Displaces flows e (before.foldl (betterVictim flows) none) := by
    refine foldl_betterVictim_displaced (nofun) fun j hj f hf hp => ?_
    exact (h.oldest j f hf hp).resolve_right fun hle => (hbefore j hj i List.mem_cons_self).not_ge hle.2
  have htaken := betterVictim_taken h.entry h.unpinned hdisplaces
  rw [victim, hsplit, List.foldl_append, List.foldl_cons, htaken]
  exact foldl_betterVictim_kept h.entry fun j _ f hf hp => (h.oldest j f hf hp).elim le_of_lt fun heq => heq.1.le

theorem placeFor_free {c : Classifier} (hi : c.flows[i] = none) (hlow : ∀ j : Fin 256, j < i → c.flows[j] ≠ none) :
    placeFor c = some (i, c) := by
  simp only [placeFor, freeFlow_lowest hi hlow]

theorem placeFor_evict {c : Classifier} (hfull : ∀ j : Fin 256, c.flows[j] ≠ none) (h : OldestUnpinned c.flows i e) :
    placeFor c = some (i, { putFlow i none c with evicted := min (c.evicted + 1) 4294967295 }) := by
  simp only [placeFor, freeFlow_full hfull, victim_oldest h]
  rfl

end Place

/-! ### A command that writes the Classifier -/

/-- A command has left `c` as the Classifier, and its COMPLETION, DONE, carries `result`. -/
structure ClsWritten (c : Classifier) (result : List Byte) (s t : State) : Prop where
  cls  : t.cls = c
  ends : EndsWith [.cls] [] .done result s t

theorem atOnce_clsWritten {f : List Byte → State → Done} {p : List Byte} {s : State} {c : Classifier} {result : List Byte}
    (h : f p s = ⟨{ s with cls := c }, .done, result⟩) : ClsWritten c result s (atOnce f p s) := by
  rw [atOnce_eq h]
  refine ⟨completeCommand_cls .., EndsWith.intro [] .done result ⟨rfl, rfl, rfl, rfl⟩ rfl fun b hb => ?_⟩
  cases b with
  | cls => exact absurd (List.mem_singleton_self _) hb
  | _ => rfl

namespace ClsWritten

variable {c : Classifier} {result : List Byte} {s t : State}

theorem onlyRules {v : Vector (Option Rule) 32} (h : ClsWritten { s.cls with rules := v } result s t) :
    t.cls = { s.cls with rules := t.cls.rules } := by rw [h.cls]

theorem rule_at {k : Fin 32} {o : Option Rule} (h : ClsWritten { c with rules := vput s.cls.rules k o } result s t) :
    t.cls.rules[k] = o := by
  rw [h.cls]
  exact vput_same ..

theorem otherRules {k : Fin 32} {o : Option Rule} (h : ClsWritten { c with rules := vput s.cls.rules k o } result s t) :
    OtherEntries k s.cls.rules t.cls.rules := by
  rw [h.cls]
  exact fun j hj => vput_ne _ _ _ _ hj

theorem onlyFlows {v : Vector (Option Flow) 256} (h : ClsWritten { s.cls with flows := v } result s t) :
    t.cls = { s.cls with flows := t.cls.flows } := by rw [h.cls]

theorem flow_at {i : Fin 256} {o : Option Flow} (h : ClsWritten (putFlow i o c) result s t) : t.cls.flows[i] = o := by
  rw [h.cls]
  exact vput_same ..

theorem otherFlows {i : Fin 256} {o : Option Flow} (h : ClsWritten (putFlow i o c) result s t)
    (hc : OtherEntries i s.cls.flows c.flows) : OtherEntries i s.cls.flows t.cls.flows := by
  rw [h.cls]
  exact fun j hj => (vput_ne _ _ _ _ hj).trans (hc j hj)

end ClsWritten

theorem OtherEntries.refl {α : Type} {n : Nat} (i : Fin n) (v : Vector α n) : OtherEntries i v v := fun _ _ => rfl

/-! ### RULE_SET and RULE_CLEAR (R66) -/

theorem condFieldOf_eq_some_iff {n : Nat} {f : CondField} : condFieldOf n = some f ↔
    n = 0 ∧ f = .dstPort ∨ n = 1 ∧ f = .srcPort ∨ n = 2 ∧ f = .anyPort ∨ n = 3 ∧ f = .protocol ∨ n = 4 ∧ f = .dscp ∨
      n = 5 ∧ f = .length := by
  match n with
  | 0 | 1 | 2 | 3 | 4 | 5 => simp [condFieldOf, eq_comm]
  | n + 6 => simp [condFieldOf]

theorem condAt_eq_some_iff {p : List Byte} {i : Nat} {c : Cond} : condAt p i = some c ↔ CondAsked p i c := by
  obtain ⟨f, l, e, g, r⟩ := c
  unfold CondAsked
  rw [← condFieldOf_eq_some_iff]
  unfold condAt
  cases condFieldOf (param1 p i) with
  | none => simp
  | some f' =>
    by_cases hset : param1 p (i + 1) < 8
    · simp only [hset, if_true, Option.some.injEq, Cond.mk.injEq, true_and]
      tauto
    · simp [hset]

theorem classAllowance_eq_some_iff {code allowance : Nat} {cls : Class} {a : Nat} :
    classAllowance code allowance = some (cls, a) ↔ ClassAsked code allowance cls a := by
  match code with
  | 0 => simp [classAllowance, classOf, ClassAsked, and_assoc, eq_comm]
  | 1 | 2 => simp [classAllowance, classOf, ClassAsked, eq_comm]
  | n + 3 => simp [classAllowance, classOf, ClassAsked]

theorem ruleAt_eq_some_iff {p : List Byte} {i : Nat} {r : Rule} : ruleAt p i = some r ↔
    CondAsked p i r.c0 ∧ CondAsked p (i + 4) r.c1 ∧ ClassAsked (param1 p (i + 8)) (param2 p (i + 9)) r.cls r.allowance := by
  rw [← condAt_eq_some_iff, ← condAt_eq_some_iff, ← classAllowance_eq_some_iff]
  obtain ⟨c0, c1, cls, allowance⟩ := r
  unfold ruleAt
  split
  · next h0 h1 hcls => simp [h0, h1, hcls]
  · next hnone => exact ⟨nofun, fun ⟨h0, h1, hcls⟩ => (hnone _ _ _ _ h0 h1 hcls).elim⟩

section Rules

variable {p : List Byte} (s : State)

theorem exec_ruleSet {s : State} (hc : commanded s 0x07 p = true) : exec .ruleSet s = .next (atOnce ruleSet p s) :=
  congrArg Host.Outcome.next (runCommand_commanded hc _)

theorem exec_ruleClear {s : State} (hc : commanded s 0x08 p = true) : exec .ruleClear s = .next (atOnce ruleClear p s) :=
  congrArg Host.Outcome.next (runCommand_commanded hc _)

theorem ruleSet_outOfRange (h : 32 ≤ param1 p 0 ∨ ∀ r, ruleAt p 1 ≠ some r) : ruleSet p s = refuse .refusedRange s := by
  unfold ruleSet
  split
  · next i r hi hr =>
    rcases h with hindex | hrule
    · rw [indexOf_none hindex] at hi; cases hi
    · exact absurd hr (hrule r)
  · rfl

theorem ruleSet_written {k : Fin 32} {r : Rule} (hk : param1 p 0 = k.val) (hr : ruleAt p 1 = some r) :
    ClsWritten { s.cls with rules := vput s.cls.rules k (some r) } [] s (atOnce ruleSet p s) :=
  atOnce_clsWritten (by simp only [ruleSet, indexOf_eq hk, hr]; rfl)

theorem ruleClear_outOfRange (h : 32 ≤ param1 p 0) : ruleClear p s = refuse .refusedRange s := by
  simp only [ruleClear, indexOf_none h]

theorem ruleClear_written {k : Fin 32} (hk : param1 p 0 = k.val) :
    ClsWritten { s.cls with rules := vput s.cls.rules k none } [] s (atOnce ruleClear p s) :=
  atOnce_clsWritten (by simp only [ruleClear, indexOf_eq hk]; rfl)

end Rules

/-! ### FLOW_UNPIN, FLOW_PROMOTE and FLOW_FLUSH (R79, R80) -/

section Flows

variable {p : List Byte} {i : Fin 256} {e : Flow} (s : State)

theorem exec_flowUnpin {s : State} (hc : commanded s 0x0A p = true) : exec .flowUnpin s = .next (atOnce flowUnpin p s) :=
  congrArg Host.Outcome.next (runCommand_commanded hc _)

theorem exec_flowPromote {s : State} (hc : commanded s 0x0B p = true) : exec .flowPromote s = .next (atOnce flowPromote p s) :=
  congrArg Host.Outcome.next (runCommand_commanded hc _)

theorem exec_flowFlush {s : State} (hc : commanded s 0x0C p = true) : exec .flowFlush s = .next (atOnce flowFlush p s) :=
  congrArg Host.Outcome.next (runCommand_commanded hc _)

theorem flowUnpin_absent (h : KeyAbsent s (flowKeyAt p 0)) : flowUnpin p s = refuse .refusedState s := by
  simp only [flowUnpin, findFlow_absent h]

theorem flowUnpin_written (h : HoldsKey s i e (flowKeyAt p 0)) :
    ClsWritten (putFlow i (some { e with pinned := false }) s.cls) [BitVec.ofNat 8 i.val] s (atOnce flowUnpin p s) :=
  atOnce_clsWritten (by simp only [flowUnpin, findFlow_held h, vmod, h.1]; rfl)

theorem flowPromote_absent (h : KeyAbsent s (flowKeyAt p 0)) : flowPromote p s = refuse .refusedState s := by
  simp only [flowPromote, findFlow_absent h]

theorem flowPromote_notDemoted (h : HoldsKey s i e (flowKeyAt p 0)) (hcls : e.cls ≠ .demoted) :
    flowPromote p s = refuse .refusedState s := by
  simp only [flowPromote, findFlow_held h, h.1, if_neg hcls]

theorem flowPromote_written (h : HoldsKey s i e (flowKeyAt p 0)) (hcls : e.cls = .demoted) :
    ClsWritten (putFlow i (some { e with cls := .urgent, overCount := 0 }) s.cls) [BitVec.ofNat 8 i.val] s (atOnce flowPromote p s) :=
  atOnce_clsWritten (by simp only [flowPromote, findFlow_held h, h.1, if_pos hcls]; rfl)

/-- How many entries a flush removes. -/
def unpinnedCount (flows : Vector (Option Flow) 256) : Nat := flows.toList.countP fun o => o.any fun e => !e.pinned

/-- The Flow Table after a flush. -/
def flushedFlows (flows : Vector (Option Flow) 256) : Vector (Option Flow) 256 := vmap (Option.filter Flow.pinned) flows

theorem flushedFlows_at (flows : Vector (Option Flow) 256) (k : Fin 256) : (flushedFlows flows)[k] = (flows[k]).filter Flow.pinned :=
  vmap_at ..

theorem flowFlush_written (p : List Byte) (s : State) :
    ClsWritten { s.cls with flows := flushedFlows s.cls.flows, removed := min (s.cls.removed + unpinnedCount s.cls.flows) 4294967295 }
      (leBytes 2 (unpinnedCount s.cls.flows)) s (atOnce flowFlush p s) :=
  atOnce_clsWritten (by simp only [flowFlush, removeFlows, Bool.not_not]; rfl)

/-! ### FLOW_PIN (R78) -/

theorem exec_flowPin {s : State} (hc : commanded s 0x09 p = true) : exec .flowPin s = .next (atOnce flowPin p s) :=
  congrArg Host.Outcome.next (runCommand_commanded hc _)

theorem flowPin_outOfRange (h : ∀ cls a, classAllowance (param1 p 13) (param2 p 14) ≠ some (cls, a)) :
    flowPin p s = refuse .refusedRange s := by
  have hnone : classAllowance (param1 p 13) (param2 p 14) = none := Option.eq_none_iff_forall_ne_some.2 fun c => h c.1 c.2
  simp only [flowPin, hnone]

section Asked

variable {cls : Class} {a : Nat} (hask : classAllowance (param1 p 13) (param2 p 14) = some (cls, a))

include hask

theorem flowPin_overwrite_full (h : HoldsKey s i e (flowKeyAt p 0)) (hp : e.pinned = false) (hfull : 64 ≤ pinnedCount s.cls.flows) :
    flowPin p s = refuse .refusedFull s := by
  have hlimit : Config.pinLimit ≤ pinnedCount s.cls.flows := hfull
  simp [flowPin, hask, findFlow_held h, h.1, hp, hlimit]

theorem flowPin_overwrite (h : HoldsKey s i e (flowKeyAt p 0)) (hroom : e.pinned = true ∨ ¬64 ≤ pinnedCount s.cls.flows) :
    ClsWritten (putFlow i (some (repin cls a s.now e)) s.cls) [BitVec.ofNat 8 i.val] s (atOnce flowPin p s) := by
  have hlimit : ¬((!e.pinned && decide (Config.pinLimit ≤ pinnedCount s.cls.flows)) = true) := by
    rcases hroom with hp | hfree
    · simp [hp]
    · simp [Config.pinLimit, hfree]
  exact atOnce_clsWritten (by simp only [flowPin, hask, findFlow_held h, h.1, if_neg hlimit]; rfl)

theorem flowPin_new_full (h : KeyAbsent s (flowKeyAt p 0)) (hfull : 64 ≤ pinnedCount s.cls.flows) :
    flowPin p s = refuse .refusedFull s := by
  have hlimit : Config.pinLimit ≤ pinnedCount s.cls.flows := hfull
  simp only [flowPin, hask, findFlow_absent h, if_pos hlimit]

theorem flowPin_new (h : KeyAbsent s (flowKeyAt p 0)) (hroom : ¬64 ≤ pinnedCount s.cls.flows) {c : Classifier}
    (hplace : placeFor s.cls = some (i, c)) :
    ClsWritten (putFlow i (some (pinnedFlow (flowKeyAt p 0) cls a s.now)) c) [BitVec.ofNat 8 i.val] s (atOnce flowPin p s) := by
  have hlimit : ¬Config.pinLimit ≤ pinnedCount s.cls.flows := hroom
  exact atOnce_clsWritten (by simp only [flowPin, hask, findFlow_absent h, if_neg hlimit, hplace]; rfl)

end Asked

end Flows

/-! ### The obligations -/

/-- Settles O51: each refusal by the check that decides it, each other end by the Classifier that the command leaves (`ClsWritten`). -/
theorem ruleAndFlowCommandsActOnOneEntry : Obligations.RuleAndFlowCommandsActOnOneEntry := by
  refine ⟨⟨fun s p hc => ⟨fun hbad => ⟨_, exec_ruleSet hc, ?ruleSetRefused⟩, fun k r hk hasked => ⟨_, exec_ruleSet hc, ?ruleSet⟩⟩,
      fun s p hc => ⟨fun hk => ⟨_, exec_ruleClear hc, ?ruleClearRefused⟩, fun k hk => ⟨_, exec_ruleClear hc, ?ruleClear⟩⟩⟩,
    fun s p hc => ⟨fun hno => ⟨_, exec_flowUnpin hc, ?unpinRefused⟩, fun i e he => ⟨_, exec_flowUnpin hc, ?unpin⟩⟩,
    fun s p hc => ⟨fun hno => ⟨_, exec_flowPromote hc, ?promoteRefused⟩,
      fun i e he => ⟨_, exec_flowPromote hc, fun hcls => ?notDemoted, fun hcls => ?promote⟩⟩,
    fun s p hc => ⟨_, exec_flowFlush hc, ?flush⟩⟩
  case ruleSetRefused =>
    exact atOnce_refused (ruleSet_outOfRange s (hbad.imp_right fun hno r hr => hno ⟨r, ruleAt_eq_some_iff.1 hr⟩))
  case ruleSet =>
    have h := ruleSet_written s hk (ruleAt_eq_some_iff.2 hasked)
    exact ⟨h.onlyRules, h.rule_at, h.otherRules, h.ends⟩
  case ruleClearRefused => exact atOnce_refused (ruleClear_outOfRange s hk)
  case ruleClear =>
    have h := ruleClear_written s hk
    exact ⟨h.onlyRules, h.rule_at, h.otherRules, h.ends⟩
  case unpinRefused => exact atOnce_refused (flowUnpin_absent s hno)
  case unpin =>
    have h := flowUnpin_written s he
    exact ⟨h.ends, h.onlyFlows, h.otherFlows (.refl _ _), h.flow_at⟩
  case promoteRefused => exact atOnce_refused (flowPromote_absent s hno)
  case notDemoted => exact atOnce_refused (flowPromote_notDemoted s he hcls)
  case promote =>
    have h := flowPromote_written s he hcls
    exact ⟨h.ends, h.onlyFlows, h.otherFlows (.refl _ _), h.flow_at⟩
  case flush =>
    have h := flowFlush_written p s
    refine ⟨h.ends, by rw [h.cls]; rfl, fun k hk => ?_, fun k e he => ?_⟩
    · rw [h.cls, flushedFlows_at, hk, Option.filter_none]
    · rw [h.cls, flushedFlows_at, he, Option.filter_some]

/-- Settles O52: the checks of R78 in order, an overwritten entry by `repin`, and a new one in the place that `placeFor` gives: the lowest
free entry, or that of the oldest unpinned flow (`victim_oldest`). -/
theorem flowPinKeepsTheLimit : Obligations.FlowPinKeepsTheLimit := by
  refine fun s p hc => ⟨fun hno => ⟨_, exec_flowPin hc, ?range⟩, fun cls a hasked => ?_⟩
  case range => exact atOnce_refused (flowPin_outOfRange s fun cls a h => hno ⟨cls, a, classAllowance_eq_some_iff.1 h⟩)
  have hask := classAllowance_eq_some_iff.2 hasked
  refine ⟨fun ⟨hfull, hkey⟩ => ⟨_, exec_flowPin hc, ?full⟩, fun i e he hroom => ⟨_, exec_flowPin hc, ?overwrite⟩,
    fun i hno hroom => ⟨fun hi hlow => ⟨_, exec_flowPin hc, ?free⟩, fun e hi hp hall hold => ⟨_, exec_flowPin hc, ?evict⟩⟩⟩
  case full =>
    rcases hkey with hno | ⟨i, e, he, hp⟩
    · exact atOnce_refused (flowPin_new_full s hask hno hfull)
    · exact atOnce_refused (flowPin_overwrite_full s hask he hp hfull)
  case overwrite =>
    have h := flowPin_overwrite s hask he hroom
    exact ⟨h.ends, h.onlyFlows, h.otherFlows (.refl _ _), h.flow_at⟩
  case free =>
    have h := flowPin_new s hask hno hroom (placeFor_free hi hlow)
    exact ⟨⟨h.ends, h.otherFlows (.refl _ _), h.flow_at⟩, h.onlyFlows⟩
  case evict =>
    have h := flowPin_new s hask hno hroom (placeFor_evict hall ⟨hi, hp, hold⟩)
    exact ⟨⟨h.ends, h.otherFlows fun j hj => vput_ne _ _ _ _ hj, h.flow_at⟩, by rw [h.cls]; rfl⟩

end Sys2Proof.Machine

/-! SUPPORT. STATUS_RECORD_DECISION (R34, R107 to R109): the release of a rewritten write, what the decision of a status record leaves as
it was, each of its ends, and the obligation O27. -/

namespace Sys2Proof.Machine

open Sys2Proof

/-! ### The operations of the Rewriter -/

theorem KeepsAllBut.append {bs cs : List Block} {s t u : State} (h : KeepsAllBut bs s t) (h' : KeepsAllBut cs t u) :
    KeepsAllBut (bs ++ cs) s u :=
  (h.mono fun _ hb => List.mem_append_left _ hb).trans (h'.mono fun _ hb => List.mem_append_right _ hb)

theorem dropHeld_keeps (s : State) : KeepsAllBut [.rew] s (dropHeld s) := by
  intro b hb
  cases b with
  | rew => exact absurd (List.mem_singleton_self _) hb
  | _ => rfl

theorem modCounts_keeps (slot : Fin 16) (f : SlotCounts → SlotCounts) (s : State) : KeepsAllBut [.rew] s (modCounts slot f s) := by
  intro b hb
  cases b with
  | rew => exact absurd (List.mem_singleton_self _) hb
  | _ => rfl

theorem handSample_keeps (x : Sample) (s : State) : KeepsAllBut [.sig] s (handSample x s) := by
  intro b hb
  cases b with
  | sig => exact absurd (List.mem_singleton_self _) hb
  | _ => rfl

theorem modStation_keeps (i : Fin 128) (f : Station → Station) (s : State) : KeepsAllBut [.sta] s (modStation i f s) := by
  intro b hb
  cases b with
  | sta => exact absurd (List.mem_singleton_self _) hb
  | _ => rfl

theorem releaseRewritten_keeps (tag : Nat) (bytes : List Byte) (s : State) : KeepsAllBut [.path] s (releaseRewritten tag bytes s) := by
  intro b hb
  cases b with
  | path => exact absurd (List.mem_singleton_self _) hb
  | _ => rfl

theorem releaseRewritten_path (tag : Nat) (bytes : List Byte) (s : State) :
    (releaseRewritten tag bytes s).path = { s.path with
      writes := s.path.writes.map fun w => if w.tag = tag then { w with data := withBytes w.data bytes, stage := .ready } else w,
      ready := s.path.ready ++ [tag] } := by
  simp only [releaseRewritten, release, modWrite, List.map_map]
  congr 1
  refine List.map_congr_left fun w _ => ?_
  by_cases h : w.tag = tag <;> simp [h]

@[simp] theorem releaseRewritten_sta (tag : Nat) (bytes : List Byte) (s : State) : (releaseRewritten tag bytes s).sta = s.sta := rfl
@[simp] theorem releaseRewritten_rew (tag : Nat) (bytes : List Byte) (s : State) : (releaseRewritten tag bytes s).rew = s.rew := rfl

/-- A decision on the state without the front of the order, and the release that follows it. -/
theorem KeepsAllBut.decided {bs : List Block} {s u : State} (h : KeepsAllBut bs (dropHeld s) u) (tag : Nat) (bytes : List Byte) :
    KeepsAllBut ([.rew] ++ bs ++ [.path]) s (releaseRewritten tag bytes u) :=
  ((dropHeld_keeps s).append h).append (releaseRewritten_keeps tag bytes u)

/-! ### The reports of a decision -/

theorem Reports.mono {bs cs : List Block} {rs : List Report} {s t : State} (h : Reports bs rs s t) (hs : ∀ b ∈ bs, b ∈ cs) :
    Reports cs rs s t := by
  obtain ⟨hcmd, hown, hkeep⟩ := h
  refine ⟨hcmd, hown, hkeep.mono fun b hb => ?_⟩
  exact List.mem_append.2 ((List.mem_append.1 hb).imp_left (hs b))

/-- Reports seen from an earlier state that agrees in what reports depend on. -/
theorem Reports.after {bs cs : List Block} {rs : List Report} {s u t : State} (h : Reports cs rs u t) (hs : SameReporting s u)
    (hk : KeepsAllBut bs s u) : Reports (bs ++ cs) rs s t := by
  obtain ⟨hcmd, hown, hkeep⟩ := h
  have hp := offerAll_parts rs hs
  refine ⟨hcmd.trans hp.cmd, hown.trans hp.own, ?_⟩
  rw [List.append_assoc]
  exact hk.append hkeep

theorem Reports.decided {bs : List Block} {rs : List Report} {s u : State} (h : Reports bs rs (dropHeld s) u) (tag : Nat)
    (bytes : List Byte) : Reports ([.rew] ++ bs ++ [.path]) rs s (releaseRewritten tag bytes u) := by
  obtain ⟨hcmd, hown, hkeep⟩ := h.after (s := s) ⟨rfl, rfl, rfl, rfl⟩ (dropHeld_keeps s)
  refine ⟨hcmd, hown, (hkeep.append (releaseRewritten_keeps tag bytes u)).mono fun b hb => ?_⟩
  simp only [List.mem_append] at hb ⊢
  tauto

/-! ### The recent-unknown list (R34) -/

theorem pushUnknown_eq (mac : Mac) (l : List Mac) : pushUnknown mac l = (if l.length < 16 then l else l.tail) ++ [mac] := by
  simp only [pushUnknown, Config.unknownLimit, ← Nat.not_lt, ite_not]

theorem meetUnknown_listed {mac : Mac} {s : State} (h : mac ∈ s.sta.unknown) (slot : Fin 16) (raw : Byte) :
    meetUnknown mac slot raw s = s := if_pos (List.contains_iff_mem.2 h)

theorem meetUnknown_reported {mac : Mac} {s : State} (h : mac ∉ s.sta.unknown) (slot : Fin 16) (raw : Byte) :
    meetUnknown mac slot raw s =
      { offer (.unknownStation mac slot raw) s with sta := { s.sta with unknown := pushUnknown mac s.sta.unknown } } := by
  simp [meetUnknown, h]

theorem meetUnknown_reports {mac : Mac} {s : State} (h : mac ∉ s.sta.unknown) (slot : Fin 16) (raw : Byte) :
    Reports [.sta] [.unknownStation mac slot raw] s (meetUnknown mac slot raw s) := by
  rw [meetUnknown_reported h]
  refine ⟨rfl, rfl, fun b hb => ?_⟩
  cases b with
  | sta => exact absurd (List.mem_cons_self ..) hb
  | _ => exact offerAll_keeps [.unknownStation mac slot raw] s _ fun hb' => hb (List.mem_append_right _ hb')

theorem meetUnknown_keeps (mac : Mac) (slot : Fin 16) (raw : Byte) (s : State) :
    KeepsAllBut [.sta, .cmd, .own] s (meetUnknown mac slot raw s) := by
  by_cases h : mac ∈ s.sta.unknown
  · rw [meetUnknown_listed h]
    exact .refl _ s
  · obtain ⟨-, -, hkeep⟩ := meetUnknown_reports h slot raw
    exact hkeep

theorem meetUnknown_sta {mac : Mac} {s : State} (h : mac ∉ s.sta.unknown) (slot : Fin 16) (raw : Byte) :
    (meetUnknown mac slot raw s).sta =
      { s.sta with unknown := (if s.sta.unknown.length < 16 then s.sta.unknown else s.sta.unknown.tail) ++ [mac] } := by
  rw [meetUnknown_reported h, pushUnknown_eq]

/-! ### The decision of a status record (R107, R108) -/

/-- The counts of a slot after a record that resolves to no station (R109). -/
def countUnknown (c : SlotCounts) : SlotCounts := { c with statusUnknown := satInc count32 c.statusUnknown }

section Decision

variable {r : StatusRecord} {i : Fin 128} {st : Station} {s : State}

theorem takenStatus_closed (h : st.closed = true) : takenStatus r i st s =
    { bytes := setFlag r.bytes r.layout.drop,
      state := modCounts r.slot
        (fun c => { c with statusTaken := satInc count32 c.statusTaken, statusDropped := satInc count32 c.statusDropped })
        (handSample ⟨i, st.mac, r.raw⟩ s) } := if_pos h

theorem takenStatus_closed_keeps (r : StatusRecord) (i : Fin 128) (s : State) (h : st.closed = true) :
    KeepsAllBut [.sig, .rew] s (takenStatus r i st s).state := by
  rw [takenStatus_closed h]
  exact (handSample_keeps _ _).append (modCounts_keeps _ _ _)

theorem takenStatus_open (h : st.closed = false) : takenStatus r i st s =
    { bytes := r.bytes,
      state := modCounts r.slot (fun c => { c with statusTaken := satInc count32 c.statusTaken })
        (modStation i (fun st => { st with active := true }) (handSample ⟨i, st.mac, r.raw⟩ s)) } :=
  if_neg (by simp [h])

theorem takenStatus_open_keeps (r : StatusRecord) (i : Fin 128) (s : State) (h : st.closed = false) :
    KeepsAllBut [.sig, .sta, .rew] s (takenStatus r i st s).state := by
  rw [takenStatus_open h]
  exact ((handSample_keeps _ _).append (modStation_keeps _ _ _)).append (modCounts_keeps _ _ _)

theorem decideStatus_taken (hf : findStation s.sta r.mac = some i) (hst : s.sta.stations[i] = some st) :
    decideStatus r s = takenStatus r i st s := by
  simp only [decideStatus, hf, hst]

theorem decideStatus_unknown (hf : findStation s.sta r.mac = none) : decideStatus r s = unknownStatus r s := by
  simp only [decideStatus, hf]

theorem unknownStatus_silent (h : isGroup r.mac = true ∨ r.mac ∈ s.sta.unknown) : (unknownStatus r s).state =
    modCounts r.slot countUnknown s := by
  simp only [unknownStatus]
  split
  · rfl
  · next hg => exact meetUnknown_listed (s := modCounts r.slot _ s) (h.resolve_left hg) ..

theorem unknownStatus_unicast (h : isGroup r.mac = false) : (unknownStatus r s).state =
    meetUnknown r.mac r.slot r.raw (modCounts r.slot countUnknown s) :=
  if_neg (by simp [h])

theorem unknownStatus_reports (hg : isGroup r.mac = false) (hnew : r.mac ∉ s.sta.unknown) :
    Reports [.rew, .sta] [.unknownStation r.mac r.slot r.raw] s (unknownStatus r s).state := by
  rw [unknownStatus_unicast hg]
  have h := meetUnknown_reports (s := modCounts r.slot countUnknown s) hnew r.slot r.raw
  exact h.after (s := s) ⟨rfl, rfl, rfl, rfl⟩ (modCounts_keeps r.slot countUnknown s)

theorem unknownStatus_sta (hg : isGroup r.mac = false) (hnew : r.mac ∉ s.sta.unknown) : (unknownStatus r s).state.sta =
    { s.sta with unknown := (if s.sta.unknown.length < 16 then s.sta.unknown else s.sta.unknown.tail) ++ [r.mac] } := by
  rw [unknownStatus_unicast hg]
  exact meetUnknown_sta (s := modCounts r.slot countUnknown s) hnew r.slot r.raw

/-- A decision of a status record that counts `f` in the slot of the record, and changes nothing else of the Rewriter and nothing of
the path. -/
structure CountsInSlot (slot : Fin 16) (f : SlotCounts → SlotCounts) (s u : State) : Prop where
  rew  : u.rew = (modCounts slot f s).rew
  path : u.path = s.path

theorem takenStatus_counts (r : StatusRecord) (i : Fin 128) (st : Station) (s : State) :
    ∃ f, CountsInSlot r.slot f s (takenStatus r i st s).state := by
  cases h : st.closed with
  | true => exact takenStatus_closed h ▸ ⟨_, rfl, rfl⟩
  | false => exact takenStatus_open h ▸ ⟨_, rfl, rfl⟩

theorem unknownStatus_counts (r : StatusRecord) (s : State) :
    CountsInSlot r.slot countUnknown s (unknownStatus r s).state := by
  cases h : isGroup r.mac with
  | true => exact unknownStatus_silent (s := s) (.inl h) ▸ ⟨rfl, rfl⟩
  | false =>
    rw [unknownStatus_unicast h]
    have hk := meetUnknown_keeps r.mac r.slot r.raw (modCounts r.slot countUnknown s)
    exact ⟨hk .rew (by decide), hk .path (by decide)⟩

theorem decideStatus_counts (r : StatusRecord) (s : State) : ∃ f, CountsInSlot r.slot f s (decideStatus r s).state := by
  unfold decideStatus
  split
  · exact ⟨_, unknownStatus_counts r s⟩
  · split
    · exact ⟨_, unknownStatus_counts r s⟩
    · exact takenStatus_counts ..

end Decision

/-! ### The event -/

theorem exec_statusRecordDecision {s : State} {w : WriteTx} {rest : List Nat} {r : StatusRecord} (ho : s.rew.order = w.tag :: rest)
    (hw : findWrite s.path w.tag = some w) (hr : statusOf w = some r) : exec .statusRecordDecision s =
      .next (releaseRewritten w.tag (decideStatus r (dropHeld s)).bytes (decideStatus r (dropHeld s)).state) := by
  change execStatusRecordDecision s = _
  simp only [execStatusRecordDecision, statusDecision, nextHeld, ho, hw, hr]

/-- Settles O27: what every decision of a status record counts (`decideStatus_counts`), then its ends: the gate CLOSED, the gate OPEN, and
an unknown MAC, reported or not. -/
theorem statusRecordGetsTheDropMarkOfAClosedGate : Obligations.StatusRecordGetsTheDropMarkOfAClosedGate := by
  intro s w rest r ho hw hr
  obtain ⟨f, hrew, hpath⟩ := decideStatus_counts r (dropHeld s)
  refine ⟨_, (decideStatus r (dropHeld s)).bytes, exec_statusRecordDecision ho hw hr, ?path, ?order, ?otherCounts,
    fun i st hf hst => ?taken, fun hf => ?unknown⟩
  case path => rw [releaseRewritten_path, hpath]; rfl
  case order =>
    rw [releaseRewritten_rew, hrew]
    exact congrArg List.tail ho
  case otherCounts =>
    rw [releaseRewritten_rew, hrew]
    exact fun j hj => vmod_ne _ _ _ _ hj
  case taken =>
    rw [decideStatus_taken (s := dropHeld s) hf hst]
    cases h : st.closed with
    | true =>
      have hk := (takenStatus_closed_keeps r i (dropHeld s) h).decided w.tag (takenStatus r i st (dropHeld s)).bytes
      rw [takenStatus_closed h] at hk ⊢
      exact ⟨rfl, fun _ => ⟨rfl, hk.mono (by decide), vmod_same ..⟩, nofun⟩
    | false =>
      have hk := (takenStatus_open_keeps r i (dropHeld s) h).decided w.tag (takenStatus r i st (dropHeld s)).bytes
      rw [takenStatus_open h] at hk ⊢
      refine ⟨rfl, nofun, fun _ => ⟨rfl, hk.mono (by decide), fun j hj => vmod_ne _ _ _ _ hj, ?_, rfl, vmod_same ..⟩⟩
      exact (vmod_same ..).trans (congrArg _ hst)
  case unknown =>
    rw [decideStatus_unknown (s := dropHeld s) hf]
    refine ⟨rfl, ?count, fun hsilent => ?silent, fun hg hnew => ?reported⟩
    case count =>
      rw [releaseRewritten_rew, (unknownStatus_counts r (dropHeld s)).rew]
      exact vmod_same ..
    case silent =>
      rw [unknownStatus_silent (s := dropHeld s) hsilent]
      exact ((modCounts_keeps r.slot countUnknown (dropHeld s)).decided w.tag _).mono (by decide)
    case reported =>
      refine ⟨((unknownStatus_reports (s := dropHeld s) hg hnew).decided w.tag _).mono (by decide), ?_⟩
      rw [releaseRewritten_sta, unknownStatus_sta (s := dropHeld s) hg hnew]
      exact ⟨rfl, rfl, rfl⟩

end Sys2Proof.Machine

/-! SUPPORT. The roaming state machine on one valid sample (R121 to R124): the candidate test, the step from each state, and the
obligation O29. -/

namespace Sys2Proof.Machine

open Sys2Proof

/-! ### The candidate test (R123) -/

section RoamStep

variable {prof : RoamProfile} {now deadline : Nat} {i : Fin 128} {st : Station} {e : Int}

theorem urgentRaised_iff : urgentRaised prof now st e = true ↔
    (∃ u, st.lastUrgent = some u ∧ now - u ≤ prof.urgentRecent) ∧ 16 * prof.tFloor ≤ e := by
  simp only [urgentRaised, urgentRecently, Bool.and_eq_true, Option.any_eq_true, decide_eq_true_eq]

theorem candidateTest_noPeer (h : st.peer = none) : candidateTest prof now deadline i st e = none := by
  simp only [candidateTest, h]

theorem candidateTest_expired {p : Peer} (hp : st.peer = some p) (hold : prof.peerMaxAge < now - p.measuredAt) :
    candidateTest prof now deadline i st e = none := by
  simp only [candidateTest, hp, Peer.expired, decide_eq_true hold, if_true]

/-- With a peer entry that stands, the margin alone decides. -/
theorem candidateTest_standing {p : Peer} (hp : st.peer = some p) (hage : now - p.measuredAt ≤ prof.peerMaxAge) :
    candidateTest prof now deadline i st e =
      if (16 * requiredMargin prof (urgentRaised prof now st e) : Nat) ≤ p.est - e then
        some ({ st with state := .candidate, deadline := deadline },
              .handoffCandidate i st.mac e p.est p.node (p.est - e) (urgentRaised prof now st e))
      else none := by
  simp only [candidateTest, hp, Peer.expired, decide_eq_false hage.not_gt, Bool.false_eq_true, if_false]

/-! ### The step from each state (R122, R124) -/

/-- A station after one more sample in WATCH that is below the strong threshold (R122). -/
def countDwell (st : Station) : Station := { st with dwell := satInc 63 st.dwell }

theorem roamStep_settled (h : st.state = .settled) : roamStep prof now deadline i st e =
    (if e < 16 * prof.tWeak then { st with state := .watch, dwell := 0 } else st, none) := by
  simp only [roamStep, h]
  split <;> rfl

theorem roamStep_watch (h : st.state = .watch) : roamStep prof now deadline i st e =
    if 16 * (prof.tWeak + prof.hys) ≤ e then ({ st with state := .settled, dwell := 0 }, none)
    else if prof.dwell ≤ (countDwell st).dwell then
      (candidateTest prof now deadline i (countDwell st) e).elim (countDwell st, none) fun x => (x.1, some x.2)
    else (countDwell st, none) := by
  simp only [roamStep, countDwell, h]
  cases candidateTest prof now deadline i { st with state := .watch, dwell := satInc 63 st.dwell } e <;> rfl

theorem roamStep_watch_strong (h : st.state = .watch) (hs : 16 * (prof.tWeak + prof.hys) ≤ e) :
    roamStep prof now deadline i st e = ({ st with state := .settled, dwell := 0 }, none) := by
  rw [roamStep_watch h, if_pos hs]

theorem roamStep_watch_early (h : st.state = .watch) (hs : e < 16 * (prof.tWeak + prof.hys))
    (hd : (countDwell st).dwell < prof.dwell) : roamStep prof now deadline i st e = (countDwell st, none) := by
  rw [roamStep_watch h, if_neg hs.not_ge, if_neg hd.not_ge]

theorem roamStep_watch_test (h : st.state = .watch) (hs : e < 16 * (prof.tWeak + prof.hys))
    (hd : prof.dwell ≤ (countDwell st).dwell) : roamStep prof now deadline i st e =
      (candidateTest prof now deadline i (countDwell st) e).elim (countDwell st, none) fun x => (x.1, some x.2) := by
  rw [roamStep_watch h, if_neg hs.not_ge, if_pos hd]

theorem roamStep_watch_stays (h : st.state = .watch) (hs : e < 16 * (prof.tWeak + prof.hys))
    (ht : candidateTest prof now deadline i (countDwell st) e = none) :
    roamStep prof now deadline i st e = (countDwell st, none) := by
  rcases lt_or_ge (countDwell st).dwell prof.dwell with hd | hd
  · exact roamStep_watch_early h hs hd
  · rw [roamStep_watch_test h hs hd, ht, Option.elim_none]

theorem roamStep_candidate (h : st.state = .candidate) : roamStep prof now deadline i st e =
    if 16 * (prof.tWeak + prof.hys) ≤ e then
      ({ st with state := .settled, dwell := 0, deadline := 0 }, some (.candidateWithdrawn i st.mac e))
    else (st, none) := by
  simp only [roamStep, h]

theorem roamStep_handoff_or_holdoff (h : st.state = .handoff ∨ st.state = .holdoff) :
    roamStep prof now deadline i st e = (st, none) := by
  rcases h with h | h <;> simp only [roamStep, h]

end RoamStep

/-! ### The obligation -/

/-- Settles O29: the step from each state; in WATCH below the strong threshold, the dwell and then the candidate test, whose
urgent-raised flag is the one that the statement names (`urgentRaised_iff`). -/
theorem roamingMakesAtMostOneTransition : Obligations.RoamingMakesAtMostOneTransition := by
  intro prof now deadline i st e
  refine ⟨roamStep_settled, roamStep_watch_strong, fun h hs => ⟨fun hwhy => ?stays, fun p hd hp hage raised hraised => ?tested⟩,
    roamStep_candidate, roamStep_handoff_or_holdoff⟩
  case stays =>
    obtain hd | hnone | ⟨p, hp, hold⟩ := hwhy
    · exact roamStep_watch_early h hs hd
    · exact roamStep_watch_stays h hs (candidateTest_noPeer hnone)
    · exact roamStep_watch_stays h hs (candidateTest_expired hp hold)
  case tested =>
    have hflag : urgentRaised prof now (countDwell st) e = raised := Bool.eq_iff_iff.2 (urgentRaised_iff.trans hraised.symm)
    have htest := candidateTest_standing (deadline := deadline) (i := i) (st := countDwell st) (e := e) hp hage
    rw [hflag, Nat.cast_mul] at htest
    refine ⟨fun hmet => ?_, fun hmissed => ?_⟩
    · rw [roamStep_watch_test h hs hd, htest]
      exact congrArg (Option.elim · _ _) (if_pos hmet)
    · exact roamStep_watch_stays h hs (htest.trans (if_neg hmissed.not_ge))

end Sys2Proof.Machine

/-! SUPPORT. BOOT_RECORD_CHECK (R146, R147): the cause by which the check refuses a record write, what a refused write and a released one
leave, and the obligation O20. -/

namespace Sys2Proof.Machine

open Sys2Proof

/-! ### Refused and released writes -/

/-- Settling the lists neither adds a write nor changes a write's tag or stage. -/
theorem settleFrom_origin {older ws : List WriteTx} {v : WriteTx} (h : v ∈ settleFrom older ws) :
    ∃ w ∈ ws, v.tag = w.tag ∧ v.stage = w.stage := by
  induction ws generalizing older with
  | nil => cases h
  | cons w ws ih =>
    obtain rfl | htail := List.mem_cons.1 h
    · exact ⟨w, List.mem_cons_self .., settleWrite_tag .., settleWrite_stage ..⟩
    · obtain ⟨x, hx, hsame⟩ := ih htail
      exact ⟨x, List.mem_cons_of_mem _ hx, hsame⟩

theorem findWrite_eq_some {p : PathUnit} {tag : Nat} {x : WriteTx} (h : findWrite p tag = some x) : x ∈ p.writes ∧ x.tag = tag := by
  have htag := List.find?_some h
  exact ⟨List.mem_of_find?_eq_some h, beq_iff_eq.1 htag⟩

theorem refuseWrite_stage {tag : Nat} {s : State} {x : WriteTx} (h : findWrite (refuseWrite tag s).path tag = some x) :
    x.stage = .refused true := by
  obtain ⟨hmem, rfl⟩ := findWrite_eq_some h
  obtain ⟨y, hy, htag, hstage⟩ := settleFrom_origin hmem
  obtain ⟨w, -, rfl⟩ := List.mem_map.1 hy
  rw [hstage]
  by_cases hw : w.tag = x.tag
  · rw [if_pos hw]
  · rw [if_neg hw] at htag
    exact absurd htag.symm hw

theorem refuseWrite_ready (tag : Nat) (s : State) : (refuseWrite tag s).path.ready = s.path.ready := rfl

theorem release_path (tag : Nat) (s : State) : (release tag s).path = { s.path with
    writes := s.path.writes.map fun w => if w.tag = tag then { w with stage := .ready } else w,
    ready := s.path.ready ++ [tag] } := rfl

/-! ### The cause of a refusal (R146) -/

/-- A well-formed record names a bank (R144). -/
theorem bankOf_of_recordFault_none {bs : List Byte} (h : recordFault bs = none) :
    bankOf (recSelected bs) = some ((bankOf (recSelected bs)).getD .a) := by
  cases hb : bankOf (recSelected bs) with
  | some k => rfl
  | none =>
    simp only [recordFault, hb, Option.isNone_none, Bool.true_or, if_true] at h
    split at h
    · cases h
    · split at h <;> cases h

theorem recordCause_fault {img : ImageUnit} {bs : List Byte} {f : RecordFault} (h : recordFault bs = some f) :
    recordCause img bs = some (.fault f) := by simp only [recordCause, h]

theorem recordCause_wellFormed {img : ImageUnit} {bs : List Byte} {k : Bank} (h : recordFault bs = none)
    (hk : bankOf (recSelected bs) = some k) : recordCause img bs =
      if k = img.bank then none
      else if img.staging.state ≠ .verified then some .notVerified
      else if recVersion bs k ≠ img.staging.version then some .versionMismatch
      else none := by simp only [recordCause, h, hk]

/-- A record without a cause of refusal names a bank. -/
theorem bankOf_of_recordCause_none {img : ImageUnit} {bs : List Byte} (h : recordCause img bs = none) :
    bankOf (recSelected bs) = some ((bankOf (recSelected bs)).getD .a) := by
  cases hf : recordFault bs with
  | none => exact bankOf_of_recordFault_none hf
  | some f =>
    rw [recordCause_fault hf] at h
    cases h

theorem writtenVersion_named {bs : List Byte} {k : Bank} (s : State) (h : bankOf (recSelected bs) = some k) :
    (writtenVersion bs s).1 = recVersion bs k := by simp only [writtenVersion, h]

/-! ### The end of a check (R146, R147) -/

/-- The oldest held record write leaves the order of the checks. -/
def dropCheck (rest : List Nat) (s : State) : State := { s with img := { s.img with checks := rest } }

/-- What a refused record write leaves before its report. -/
def countRefusedRecord (tag : Nat) (bs : List Byte) (s : State) : State :=
  refuseWrite tag { s with
    img := { s.img with refusedRecords := satInc count32 s.img.refusedRecords }, free := (writtenVersion bs s).2.free }

/-- What a released record write leaves before a report, with the trial count that follows it. -/
def keepRecord (tag : Nat) (bs : List Byte) (trial : Nat) (s : State) : State :=
  release tag { s with img := { s.img with record := some bs, trial := trial } }

theorem countRefusedRecord_reports (tag : Nat) (bs : List Byte) (rest : List Nat) (rs : List Report) (s : State) :
    Reports [.path, .img, .free] rs s (offerAll rs (countRefusedRecord tag bs (dropCheck rest s))) := by
  refine Reports.intro rs ⟨rfl, rfl, rfl, rfl⟩ fun b hb => ?_
  cases b with
  | path | img | free => exact absurd (by decide) hb
  | _ => rfl

theorem keepRecord_keeps (tag : Nat) (bs : List Byte) (trial : Nat) (rest : List Nat) (s : State) :
    KeepsAllBut [.path, .img] s (keepRecord tag bs trial (dropCheck rest s)) := by
  intro b hb
  cases b with
  | path | img => exact absurd (by decide) hb
  | _ => rfl

theorem keepRecord_reports (tag : Nat) (bs : List Byte) (trial : Nat) (rest : List Nat) (rs : List Report) (s : State) :
    Reports [.path, .img] rs s (offerAll rs (keepRecord tag bs trial (dropCheck rest s))) :=
  Reports.intro rs ⟨rfl, rfl, rfl, rfl⟩ (keepRecord_keeps tag bs trial rest s)

section Check

variable {tag : Nat} {bs : List Byte} {s : State}

theorem refuseRecord_eq (cause : RecordCause) : refuseRecord tag cause bs s =
    offerAll [.recordRefused cause (recSelected bs) (writtenVersion bs s).1 s.img.staging.state s.img.staging.version]
      (countRefusedRecord tag bs s) := by
  simp only [refuseRecord, countRefusedRecord, writtenVersion]
  split <;> rfl

theorem acceptRecord_confirming {k : Bank} (hb : bankOf (recSelected bs) = some k) (hk : k = s.img.bank) (htrial : recTrial bs = 0) :
    acceptRecord tag bs s = offerAll [.confirmed k (recVersion bs k)] (keepRecord tag bs 0 s) := by
  subst hk
  exact if_pos ⟨hb, htrial⟩

theorem acceptRecord_silent {k : Bank} (hb : bankOf (recSelected bs) = some k) (h : ¬(k = s.img.bank ∧ recTrial bs = 0)) :
    acceptRecord tag bs s = keepRecord tag bs s.img.trial s :=
  if_neg fun ⟨hk, htrial⟩ => h ⟨Option.some.inj (hb.symm.trans hk), htrial⟩

end Check

/-! ### The event -/

theorem exec_bootRecordCheck (s : State) : exec .bootRecordCheck s = .next (bootRecordCheck s) := rfl

/-- The oldest held record write leaves the order, and is refused by the cause that the check finds or accepted without one. -/
theorem bootRecordCheck_eq {s : State} {w : WriteTx} {rest : List Nat} (hc : s.img.checks = w.tag :: rest)
    (hw : findWrite s.path w.tag = some w) : bootRecordCheck s =
      (recordCause s.img (laneBytes w.data)).elim (acceptRecord w.tag (laneBytes w.data) (dropCheck rest s))
        (refuseRecord w.tag · (laneBytes w.data) (dropCheck rest s)) := by
  have hsame : recordCause (dropCheck rest s).img (laneBytes w.data) = recordCause s.img (laneBytes w.data) := rfl
  rw [← hsame]
  simp only [bootRecordCheck, hc, hw, dropCheck]
  split <;> next h => rw [h]; rfl

/-- Settles O20: the cause that the statement names is the model's (`recordCause`); a write with a cause is refused (`refuseRecord_eq`),
and one without is released, with the report of a confirmed bank (`acceptRecord_confirming`) or without (`acceptRecord_silent`). -/
theorem bootRecordWriteIsChecked : Obligations.BootRecordWriteIsChecked := by
  intro s w rest hc hw bs bank failed
  have hcause : recordCause s.img bs = failed := by
    cases hf : recordFault bs with
    | some f => simp only [recordCause_fault hf, failed, hf]
    | none => simp only [recordCause_wellFormed hf (bankOf_of_recordFault_none hf), failed, hf, bank]
  refine ⟨bootRecordCheck s, (writtenVersion bs (dropCheck rest s)).1, exec_bootRecordCheck s, writtenVersion_named _,
    fun cause hfail => ?refused, fun hpass => ?released⟩
  case refused =>
    rw [bootRecordCheck_eq hc hw, hcause.trans hfail, Option.elim_some, refuseRecord_eq]
    simp only [offerAll_img, offerAll_path]
    exact ⟨rfl, fun x hx => refuseWrite_stage hx, refuseWrite_ready .., countRefusedRecord_reports ..⟩
  case released =>
    have hnone := hcause.trans hpass
    have hbank := bankOf_of_recordCause_none hnone
    rw [bootRecordCheck_eq hc hw, hnone, Option.elim_none]
    by_cases hconf : bank = s.img.bank ∧ recTrial bs = 0
    · obtain ⟨hinForce, htrial⟩ := hconf
      rw [acceptRecord_confirming (s := dropCheck rest s) hbank hinForce htrial]
      simp only [offerAll_img, offerAll_path]
      exact ⟨release_path .., fun _ => ⟨rfl, keepRecord_reports ..⟩, fun h => absurd ⟨hinForce, htrial⟩ h⟩
    · rw [acceptRecord_silent (s := dropCheck rest s) hbank hconf]
      exact ⟨release_path .., fun h => absurd h hconf, fun _ => ⟨rfl, keepRecord_keeps w.tag bs s.img.trial rest s⟩⟩

end Sys2Proof.Machine

/-! SUPPORT. The parts of State that an event may change: what each command that answers at once does before its COMPLETION (`AtOnce`), and
the parts that each of the 70 events touches (`exec_keeps`). -/

namespace Sys2Proof.Machine

open Sys2Proof

/-! ### One part written -/

theorem keepsAllBut_one {b : Block} {s t : State} (h : ∀ c, c ≠ b → State.sameAt c s t) : KeepsAllBut [b] s t :=
  fun c hc => h c fun e => hc (e ▸ List.mem_singleton_self _)

theorem keeps_boot (x : Boot) (s : State) : KeepsAllBut [.boot] s { s with boot := x } :=
  keepsAllBut_one fun b hb => by cases b <;> first | rfl | exact absurd rfl hb
theorem keeps_path (x : PathUnit) (s : State) : KeepsAllBut [.path] s { s with path := x } :=
  keepsAllBut_one fun b hb => by cases b <;> first | rfl | exact absurd rfl hb
theorem keeps_own (x : OwnPort) (s : State) : KeepsAllBut [.own] s { s with own := x } :=
  keepsAllBut_one fun b hb => by cases b <;> first | rfl | exact absurd rfl hb
theorem keeps_win (x : Windows) (s : State) : KeepsAllBut [.win] s { s with win := x } :=
  keepsAllBut_one fun b hb => by cases b <;> first | rfl | exact absurd rfl hb
theorem keeps_capture (x : CaptureUnit) (s : State) : KeepsAllBut [.capture] s { s with capture := x } :=
  keepsAllBut_one fun b hb => by cases b <;> first | rfl | exact absurd rfl hb
theorem keeps_sta (x : StationTable) (s : State) : KeepsAllBut [.sta] s { s with sta := x } :=
  keepsAllBut_one fun b hb => by cases b <;> first | rfl | exact absurd rfl hb
theorem keeps_time (x : Uptime) (s : State) : KeepsAllBut [.time] s { s with time := x } :=
  keepsAllBut_one fun b hb => by cases b <;> first | rfl | exact absurd rfl hb
theorem keeps_sched (x : Schedule) (s : State) : KeepsAllBut [.sched] s { s with sched := x } :=
  keepsAllBut_one fun b hb => by cases b <;> first | rfl | exact absurd rfl hb
theorem keeps_cls (x : Classifier) (s : State) : KeepsAllBut [.cls] s { s with cls := x } :=
  keepsAllBut_one fun b hb => by cases b <;> first | rfl | exact absurd rfl hb
theorem keeps_adm (x : Admission) (s : State) : KeepsAllBut [.adm] s { s with adm := x } :=
  keepsAllBut_one fun b hb => by cases b <;> first | rfl | exact absurd rfl hb
theorem keeps_rew (x : Rewriter) (s : State) : KeepsAllBut [.rew] s { s with rew := x } :=
  keepsAllBut_one fun b hb => by cases b <;> first | rfl | exact absurd rfl hb
theorem keeps_sig (x : SignalUnit) (s : State) : KeepsAllBut [.sig] s { s with sig := x } :=
  keepsAllBut_one fun b hb => by cases b <;> first | rfl | exact absurd rfl hb
theorem keeps_hold (x : HoldUnit) (s : State) : KeepsAllBut [.hold] s { s with hold := x } :=
  keepsAllBut_one fun b hb => by cases b <;> first | rfl | exact absurd rfl hb
theorem keeps_img (x : ImageUnit) (s : State) : KeepsAllBut [.img] s { s with img := x } :=
  keepsAllBut_one fun b hb => by cases b <;> first | rfl | exact absurd rfl hb
theorem keeps_cmd (x : CommandUnit) (s : State) : KeepsAllBut [.cmd] s { s with cmd := x } :=
  keepsAllBut_one fun b hb => by cases b <;> first | rfl | exact absurd rfl hb
theorem keeps_ports (x : List PortEvent) (s : State) : KeepsAllBut [.ports] s { s with ports := x } :=
  keepsAllBut_one fun b hb => by cases b <;> first | rfl | exact absurd rfl hb
theorem keeps_free (x : Nat) (s : State) : KeepsAllBut [.free] s { s with free := x } :=
  keepsAllBut_one fun b hb => by cases b <;> first | rfl | exact absurd rfl hb

/-! ### Commands that answer at once -/

theorem reportGates_eq (cause : GateCause) (before : Vector (Option Station) 128) (s : State) :
    reportGates cause before s = offerAll (gateReports cause before s.sta.stations) s := by rw [reportGates, gateChanges_eq]

/-- What a command that answers at once does before its COMPLETION: it writes the parts `bs` and offers reports. -/
def Owner (bs : List Block) (f : List Byte → State → Done) : Prop := ∀ p s, ∃ rs, Reports bs rs s (f p s).state

theorem Reports.silent {bs : List Block} {s t : State} (hcmd : t.cmd = s.cmd) (hown : t.own = s.own) (h : KeepsAllBut bs s t) :
    Reports bs [] s t := ⟨hcmd, hown, h.mono fun _ hb => List.mem_append_left _ hb⟩

theorem Reports.refl (bs : List Block) (s : State) : Reports bs [] s s := .silent rfl rfl (.refl bs s)

theorem refuse_reports (bs : List Block) (status : Status) (s : State) : ∃ rs, Reports bs rs s (refuse status s).state := ⟨[], .refl bs s⟩

theorem windowSet_owner : Owner [.win] windowSet := by
  intro p s
  unfold windowSet
  dsimp only
  split
  · split
    · exact refuse_reports ..
    · exact ⟨[], .silent rfl rfl (keeps_win _ s)⟩
  · exact refuse_reports ..

theorem windowClear_owner : Owner [.win] windowClear := by
  intro p s
  unfold windowClear
  split
  · exact ⟨[], .silent rfl rfl (keeps_win _ s)⟩
  · exact refuse_reports ..

theorem descProfileSet_owner : Owner [.win] descProfileSet := by
  intro p s
  unfold descProfileSet
  split
  · split
    · exact ⟨[], .silent rfl rfl (keeps_win _ s)⟩
    · exact refuse_reports ..
  · exact refuse_reports ..

theorem statusProfileSet_owner : Owner [.win] statusProfileSet := by
  intro p s
  unfold statusProfileSet
  split
  · split
    · exact ⟨[], .silent rfl rfl (keeps_win _ s)⟩
    · exact refuse_reports ..
  · exact refuse_reports ..

/-- A Station Table written, and reports offered. -/
theorem reports_sta (x : StationTable) (rs : List Report) (s : State) : Reports [.sta] rs s (offerAll rs { s with sta := x }) :=
  .intro rs ⟨rfl, rfl, rfl, rfl⟩ (keeps_sta x s)

theorem stationSet_owner : Owner [.sta] stationSet := by
  intro p s
  unfold stationSet
  dsimp only
  split
  · split
    · exact refuse_reports ..
    · split
      · exact refuse_reports ..
      · split
        · rw [installStation_eq]
          exact ⟨_, reports_sta ..⟩
        · split
          · rw [updateStation_eq]
            exact ⟨_, reports_sta ..⟩
          · exact refuse_reports ..
  · exact refuse_reports ..

theorem ruleSet_owner : Owner [.cls] ruleSet := by
  intro p s
  unfold ruleSet
  split
  · exact ⟨[], .silent rfl rfl (keeps_cls _ s)⟩
  · exact refuse_reports ..

theorem ruleClear_owner : Owner [.cls] ruleClear := by
  intro p s
  unfold ruleClear
  split
  · exact ⟨[], .silent rfl rfl (keeps_cls _ s)⟩
  · exact refuse_reports ..

theorem flowPin_owner : Owner [.cls] flowPin := by
  intro p s
  unfold flowPin
  dsimp only
  split
  · exact refuse_reports ..
  · split
    · split
      · exact refuse_reports ..
      · split
        · exact refuse_reports ..
        · exact ⟨[], .silent rfl rfl (keeps_cls _ s)⟩
    · split
      · exact refuse_reports ..
      · split
        · exact refuse_reports ..
        · exact ⟨[], .silent rfl rfl (keeps_cls _ s)⟩

theorem flowUnpin_owner : Owner [.cls] flowUnpin := by
  intro p s
  unfold flowUnpin
  split
  · exact refuse_reports ..
  · exact ⟨[], .silent rfl rfl (keeps_cls _ s)⟩

theorem flowPromote_owner : Owner [.cls] flowPromote := by
  intro p s
  unfold flowPromote
  split
  · exact refuse_reports ..
  · split
    · exact refuse_reports ..
    · split
      · exact ⟨[], .silent rfl rfl (keeps_cls _ s)⟩
      · exact refuse_reports ..

theorem flowFlush_owner : Owner [.cls] flowFlush := fun _ s => ⟨[], .silent rfl rfl (keeps_cls _ s)⟩

theorem pacingSet_owner : Owner [.adm] pacingSet := by
  intro p s
  unfold pacingSet
  dsimp only
  split
  · split
    · exact refuse_reports ..
    · exact ⟨[], .silent rfl rfl (keeps_adm _ s)⟩
  · exact refuse_reports ..

theorem capSet_owner : Owner [.adm] capSet := by
  intro p s
  unfold capSet
  dsimp only
  split
  · exact refuse_reports ..
  · split
    · exact refuse_reports ..
    · split
      · exact refuse_reports ..
      · exact ⟨[], .silent rfl rfl (keeps_adm _ s)⟩

theorem timeSet_owner : Owner [.sched, .sta] timeSet := by
  intro p s
  unfold timeSet
  dsimp only
  split
  · rw [reportGates_eq]
    refine ⟨_, .intro _ ?_ ?_⟩
    · split <;> exact ⟨rfl, rfl, rfl, rfl⟩
    · split <;> exact (keeps_sched _ s).append (keeps_sta _ _)
  · exact refuse_reports ..

theorem scheduleStage_owner : Owner [.sched] scheduleStage := by
  intro p s
  unfold scheduleStage
  split
  · split
    · exact refuse_reports ..
    · exact ⟨[], .silent rfl rfl (keeps_sched _ s)⟩
  · exact refuse_reports ..

theorem allowanceStage_owner : Owner [.sched] allowanceStage := by
  intro p s
  unfold allowanceStage
  split
  · split
    · split
      · exact refuse_reports ..
      · exact ⟨[], .silent rfl rfl (keeps_sched _ s)⟩
    · exact refuse_reports ..
  · exact refuse_reports ..

theorem scheduleCommit_owner : Owner [.sched] scheduleCommit := by
  intro p s
  unfold scheduleCommit
  split
  · exact refuse_reports ..
  · split
    · exact refuse_reports ..
    · exact ⟨[], .silent rfl rfl (keeps_sched _ s)⟩

theorem scheduleEvaluate_owner : Owner [.sta] scheduleEvaluate := by
  intro p s
  rw [scheduleEvaluate, reportGates_eq]
  exact ⟨_, reports_sta ..⟩

theorem gateSet_owner : Owner [.sta] gateSet := by
  intro p s
  unfold gateSet
  dsimp only
  split
  · split
    · rw [reportGates_eq]
      exact ⟨_, reports_sta ..⟩
    · split
      · exact refuse_reports ..
      · split
        · exact refuse_reports ..
        · rw [reportGates_eq]
          exact ⟨_, reports_sta ..⟩
  · exact refuse_reports ..

theorem grant_owner : Owner [.sta] grant := by
  intro p s
  unfold grant
  dsimp only
  split
  · exact refuse_reports ..
  · split
    · split
      · exact refuse_reports ..
      · split
        · exact refuse_reports ..
        · rw [reportGates_eq]
          exact ⟨_, reports_sta ..⟩
    · exact refuse_reports ..

theorem lineSet_owner : Owner [.sched] lineSet := by
  intro p s
  unfold lineSet
  split
  · exact ⟨[], .silent rfl rfl (keeps_sched _ s)⟩
  · exact refuse_reports ..

theorem nodeSet_owner : Owner [.sig, .sta] nodeSet := by
  intro p s
  unfold nodeSet
  dsimp only
  split
  · exact ⟨[], .silent rfl rfl ((keeps_sig _ s).append (keeps_sta _ _))⟩
  · exact refuse_reports ..

theorem roamProfileSet_owner : Owner [.sig] roamProfileSet := by
  intro p s
  unfold roamProfileSet
  split
  · exact ⟨[], .silent rfl rfl (keeps_sig _ s)⟩
  · exact refuse_reports ..

theorem handoffBegin_owner : Owner [.hold, .sta] handoffBegin := by
  intro p s
  unfold handoffBegin
  split
  · split
    · exact refuse_reports ..
    · split
      · exact refuse_reports ..
      · split
        · exact refuse_reports ..
        · split
          · exact refuse_reports ..
          · exact ⟨[], .silent rfl rfl ((keeps_hold _ s).append (keeps_sta _ _))⟩
  · exact refuse_reports ..

theorem handoffDecline_owner : Owner [.sta] handoffDecline := by
  intro p s
  unfold handoffDecline
  split
  · exact refuse_reports ..
  · split
    · exact refuse_reports ..
    · split
      · exact ⟨[], .silent rfl rfl (keeps_sta _ s)⟩
      · exact refuse_reports ..

theorem stageBegin_owner : Owner [.img] stageBegin := by
  intro p s
  unfold stageBegin
  dsimp only
  split
  · exact refuse_reports ..
  · split
    · exact refuse_reports ..
    · split
      · exact refuse_reports ..
      · split
        · exact refuse_reports ..
        · exact ⟨[], .silent rfl rfl (keeps_img _ s)⟩

theorem endSweep_keeps (s : State) : KeepsAllBut [.img, .path] s (endSweep s) := (keeps_img _ s).append (keeps_path _ _)

theorem stageCancel_owner : Owner [.img, .path] stageCancel := by
  intro p s
  unfold stageCancel
  split
  · exact refuse_reports ..
  · exact ⟨[], .silent rfl rfl (((endSweep_keeps s).append (keeps_img _ _)).mono (by decide))⟩

theorem stageVerify_owner : Owner [.img] stageVerify := by
  intro p s
  unfold stageVerify
  split
  · exact refuse_reports ..
  · split
    · exact refuse_reports ..
    · split
      · exact ⟨[], .silent rfl rfl (keeps_img _ s)⟩
      · exact refuse_reports ..

theorem activationSet_owner : Owner [.img] activationSet := by
  intro p s
  unfold activationSet
  split
  · exact refuse_reports ..
  · exact ⟨[], .silent rfl rfl (keeps_img _ s)⟩
  · exact refuse_reports ..
  · dsimp only
    split
    · exact ⟨[], .silent rfl rfl (keeps_img _ s)⟩
    · exact refuse_reports ..

/-- A command of Table 10.3 that answers at once: its kind code, its owner, and the parts that the owner writes. -/
structure AtOnce where
  code  : Nat
  owner : List Byte → State → Done
  parts : List Block
  spec  : Owner parts owner

/-- The commands that answer at once: all but STATION_CLEAR, HANDOFF_END and STATS. -/
def atOnceOf : Instr → Option AtOnce
  | .windowSet => some ⟨0x01, _, _, windowSet_owner⟩
  | .windowClear => some ⟨0x02, _, _, windowClear_owner⟩
  | .descProfileSet => some ⟨0x03, _, _, descProfileSet_owner⟩
  | .statusProfileSet => some ⟨0x04, _, _, statusProfileSet_owner⟩
  | .stationSet => some ⟨0x05, _, _, stationSet_owner⟩
  | .ruleSet => some ⟨0x07, _, _, ruleSet_owner⟩
  | .ruleClear => some ⟨0x08, _, _, ruleClear_owner⟩
  | .flowPin => some ⟨0x09, _, _, flowPin_owner⟩
  | .flowUnpin => some ⟨0x0A, _, _, flowUnpin_owner⟩
  | .flowPromote => some ⟨0x0B, _, _, flowPromote_owner⟩
  | .flowFlush => some ⟨0x0C, _, _, flowFlush_owner⟩
  | .pacingSet => some ⟨0x0D, _, _, pacingSet_owner⟩
  | .capSet => some ⟨0x0E, _, _, capSet_owner⟩
  | .timeSet => some ⟨0x0F, _, _, timeSet_owner⟩
  | .scheduleStage => some ⟨0x10, _, _, scheduleStage_owner⟩
  | .allowanceStage => some ⟨0x11, _, _, allowanceStage_owner⟩
  | .scheduleCommit => some ⟨0x12, _, _, scheduleCommit_owner⟩
  | .scheduleEvaluate => some ⟨0x13, _, _, scheduleEvaluate_owner⟩
  | .gateSet => some ⟨0x14, _, _, gateSet_owner⟩
  | .grant => some ⟨0x15, _, _, grant_owner⟩
  | .lineSet => some ⟨0x16, _, _, lineSet_owner⟩
  | .nodeSet => some ⟨0x17, _, _, nodeSet_owner⟩
  | .roamProfileSet => some ⟨0x18, _, _, roamProfileSet_owner⟩
  | .handoffBegin => some ⟨0x19, _, _, handoffBegin_owner⟩
  | .handoffDecline => some ⟨0x1A, _, _, handoffDecline_owner⟩
  | .stageBegin => some ⟨0x1C, _, _, stageBegin_owner⟩
  | .stageCancel => some ⟨0x1D, _, _, stageCancel_owner⟩
  | .stageVerify => some ⟨0x1E, _, _, stageVerify_owner⟩
  | .activationSet => some ⟨0x1F, _, _, activationSet_owner⟩
  | _ => none

theorem exec_atOnce {c : Instr} {a : AtOnce} (h : atOnceOf c = some a) (s : State) :
    exec c s = .next (runCommand a.code (atOnce a.owner) s) := by
  cases c <;> first | (cases h; rfl) | exact absurd h nofun


/-! ### What taking a command can do -/

/-- Taking a command changes nothing, or the command at the front has the code, the Command Unit is free and no visit is due, and it ends
REFUSED_RANGE or is handed to its owner (R160). -/
theorem runCommand_cases (code : Nat) (owner : List Byte → State → State) (s : State) :
    runCommand code owner s = s ∨
      s.cmd.executing = .idle ∧ s.time.visitDue = false ∧ ∃ c rest, s.cmd.queue = c :: rest ∧
        (runCommand code owner s = completeCommand .refusedRange [] s ∨ runCommand code owner s = owner (c.drop 4) s) := by
  cases hv : s.time.visitDue with
  | true => exact .inl (runCommand_visiting hv code owner)
  | false =>
    unfold runCommand nextCommand
    simp only [visiting, hv, Bool.false_eq_true, if_false]
    cases he : s.cmd.executing <;> try exact .inl rfl
    cases hq : s.cmd.queue with
    | nil => exact .inl rfl
    | cons c rest =>
      dsimp only
      split
      · exact .inl rfl
      · next x hx =>
        split at hx
        · cases hx
          refine .inr ⟨rfl, trivial, c, rest, rfl, ?_⟩
          split
          · exact .inl rfl
          · exact .inr rfl
        · cases hx

theorem runCommand_keeps {bs : List Block} {owner : List Byte → State → State} (code : Nat) (s : State) (hc : ∀ b ∈ commandParts, b ∈ bs)
    (h : ∀ p, KeepsAllBut bs s (owner p s)) : KeepsAllBut bs s (runCommand code owner s) := by
  obtain he | ⟨-, -, c, -, -, he | he⟩ := runCommand_cases code owner s
  · rw [he]; exact .refl bs s
  · rw [he]; exact (completeCommand_keeps _ _ _).mono hc
  · rw [he]; exact h _

theorem Reports.keeps {bs : List Block} {rs : List Report} {s t : State} (h : Reports bs rs s t) : KeepsAllBut (bs ++ reportParts) s t := by
  obtain ⟨-, -, hk⟩ := h
  exact hk

theorem mem_commandParts_of_reportParts {b : Block} (h : b ∈ reportParts) : b ∈ commandParts := by revert h; cases b <;> decide

theorem atOnce_keeps {bs : List Block} {f : List Byte → State → Done} (h : Owner bs f) (p : List Byte) (s : State) :
    KeepsAllBut (bs ++ commandParts) s (atOnce f p s) := by
  obtain ⟨rs, hr⟩ := h p s
  refine (hr.keeps.mono fun b hb => ?_).trans ((completeCommand_keeps _ _ _).mono fun b hb => List.mem_append_right _ hb)
  exact List.mem_append.2 ((List.mem_append.1 hb).imp_right mem_commandParts_of_reportParts)


/-! ### The other events -/

section Frames

theorem powerOnReset_keeps (s : State) : KeepsAllBut [.pins, .boot, .path, .own, .win, .capture, .sta, .time, .sched, .cls, .adm, .rew,
    .sig, .hold, .img, .cmd] s (powerOnReset s) := by
  unfold powerOnReset
  split
  · exact .refl _ s
  · intro b hb; cases b <;> first | rfl | exact absurd (by decide) hb

theorem warmReset_keeps (s : State) : KeepsAllBut [.pins, .boot, .path, .own, .win, .capture, .sta, .time, .sched, .cls, .adm, .rew,
    .sig, .hold, .img, .cmd] s (warmReset s) := by
  unfold warmReset
  split
  · exact .refl _ s
  · intro b hb; cases b <;> first | rfl | exact absurd (by decide) hb

theorem resetRelease_keeps (pin : ResetPin) (sel : BitVec 2) (s : State) : KeepsAllBut [.pins, .boot, .win] s (resetRelease pin sel s) := by
  unfold resetRelease
  split
  · intro b hb; cases b <;> first | rfl | exact absurd (by decide) hb
  · exact .refl _ s

theorem bootReadIssue_keeps (s : State) : KeepsAllBut [.boot] s (bootReadIssue s) := by
  unfold bootReadIssue
  split
  · exact keeps_boot _ s
  · exact .refl _ s

theorem offer_keeps (r : Report) (s : State) : KeepsAllBut reportParts s (offer r s) := offerAll_keeps [r] s

theorem takeStartUp_keeps (d : StartUp) (s : State) : KeepsAllBut [.boot, .img, .own, .cmd] s (takeStartUp d s) := by
  refine KeepsAllBut.trans
    (t := requestHead { s with boot := .opened, img := { s.img with bank := d.bank, trial := d.trial, record := d.record } }) ?_
    ((offer_keeps d.report _).mono (by decide))
  intro b hb; cases b <;> first | rfl | exact absurd (by decide) hb

theorem bootReadComplete_keeps (resps : List Resp) (data : List Byte) (s : State) :
    KeepsAllBut [.boot, .img, .own, .cmd] s (bootReadComplete resps data s) := by
  unfold bootReadComplete
  split
  · exact takeStartUp_keeps _ s
  · exact .refl _ s

theorem reportRefusal_keeps (region : RefusedRegion) (t : TxnAddr) (s : State) :
    KeepsAllBut [.img, .cmd, .own] s (reportRefusal region t s) := (keeps_img _ s).append (offer_keeps _ _)

theorem writeArrival_keeps (a : TxnAddr) (s : State) : KeepsAllBut [.path, .img, .cmd, .own] s (writeArrival a s) := by
  unfold writeArrival
  split
  · split
    · exact (keeps_path _ s).append (reportRefusal_keeps _ _ _)
    · exact (keeps_path _ s).mono (by decide)
  · exact .refl _ s

theorem readArrival_keeps (a : TxnAddr) (s : State) : KeepsAllBut [.path] s (readArrival a s) := by
  unfold readArrival
  split
  · exact keeps_path _ s
  · exact .refl _ s

theorem passWrite_keeps (tag : Nat) (d : List Lane) (s : State) : KeepsAllBut [.path] s (passWrite tag d s) := (passWrite_spec tag d s).2

theorem holdForRewriter_keeps (tag : Nat) (d : List Lane) (s : State) : KeepsAllBut [.path, .rew] s (holdForRewriter tag d s) :=
  (holdForRewriter_spec tag d s).2.2

theorem offerLost_keeps (s : State) : KeepsAllBut reportParts s (offerLost s) := by
  intro b hb; cases b <;> first | exact absurd (by decide) hb | simp [State.sameAt]

theorem snoopTail_keeps (v : Nat) (s : State) : KeepsAllBut [.cmd, .own] s (snoopTail v s) := by
  unfold snoopTail
  split
  · exact ((keeps_cmd _ s).append (offerLost_keeps _)).mono (by decide)
  · exact (keeps_cmd _ s).mono (by decide)

theorem completeOrReceiving_keeps (s : State) : KeepsAllBut [.img, .cmd, .own] s (completeOrReceiving s) := by
  unfold completeOrReceiving enterComplete
  split
  · exact (keeps_img _ s).append (offer_keeps _ _)
  · exact (keeps_img _ s).mono (by decide)

theorem interruptSweep_keeps (off : Nat) (s : State) : KeepsAllBut [.img, .path, .free, .cmd, .own] s (interruptSweep off s) :=
  ((((endSweep_keeps s).append (keeps_free _ _)).append (offer_keeps _ _)).append (completeOrReceiving_keeps _)).mono (by decide)

theorem followMap_keeps (off : Nat) (s : State) : KeepsAllBut [.img, .path, .free, .cmd, .own] s (followMap off s) := by
  have hset (g : Staging) : KeepsAllBut [.img, .path, .free, .cmd, .own] s (setStaging g s) := (keeps_img _ s).mono (by decide)
  have hcomplete : KeepsAllBut [.img, .path, .free, .cmd, .own] s (enterComplete s) :=
    ((keeps_img _ s).append (offer_keeps _ _)).mono (by decide)
  unfold followMap
  split
  · exact .refl _ s
  · split
    · exact hcomplete
    · exact .refl _ s
  · split
    · exact .refl _ s
    · exact hset _
  · split
    · exact .refl _ s
    · exact hset _
  · exact (completeOrReceiving_keeps s).mono (by decide)
  · exact interruptSweep_keeps off s

theorem trackWrite_keeps (t : TxnAddr) (d : List Lane) (s : State) :
    KeepsAllBut [.img, .path, .free, .cmd, .own] s (trackWrite t d s) := by
  unfold trackWrite
  split
  · exact .refl _ s
  · dsimp only
    split
    · exact ((keeps_img _ s).append (followMap_keeps _ _)).mono (by decide)
    · exact ((keeps_img _ s).append (followMap_keeps _ _)).mono (by decide)

theorem takePeer_keeps (r : PeerRecord) (s : State) : KeepsAllBut [.sig, .sta] s (takePeer r s) := by
  unfold takePeer
  split
  · exact (keeps_sig _ s).mono (by decide)
  · dsimp only
    split
    · exact (keeps_sig _ s).mono (by decide)
    · exact (keeps_sig _ s).append (keeps_sta _ _)

/-- The parts that the reception of a write of some kind touches. -/
def receptionParts : Reception → List Block
  | .refusal | .plain => [.path, .sig]
  | .record => [.path, .img, .cmd, .own]
  | .staging => [.img, .path, .free, .cmd, .own]
  | .descriptor | .status => [.path, .rew]
  | .frameStart => [.path, .capture]
  | .peer => [.path, .sig, .sta]
  | .command | .commandOther | .tail => [.path, .cmd, .own]

theorem receiveRecord_keeps (w : WriteTx) (d : List Lane) (s : State) : KeepsAllBut [.path, .img, .cmd, .own] s (receiveRecord w d s) := by
  unfold receiveRecord
  split
  · exact ((keeps_path _ s).append (keeps_img _ _)).mono (by decide)
  · exact ((keeps_path _ s).append (reportRefusal_keeps _ _ _))

theorem receiveDescriptor_keeps (w : WriteTx) (d : List Lane) (s : State) : KeepsAllBut [.path, .rew] s (receiveDescriptor w d s) := by
  have hpass : KeepsAllBut [.path, .rew] s (passWrite w.tag d s) := (passWrite_keeps _ _ _).mono (by decide)
  unfold receiveDescriptor
  split
  · exact hpass
  · split
    · split
      · split
        · exact holdForRewriter_keeps _ _ _
        · exact hpass
      · exact ((modCounts_keeps _ _ s).append (passWrite_keeps _ _ _)).mono (by decide)
    · exact hpass
    · exact hpass

theorem receiveStatus_keeps (w : WriteTx) (d : List Lane) (s : State) : KeepsAllBut [.path, .rew] s (receiveStatus w d s) := by
  have hpass : KeepsAllBut [.path, .rew] s (passWrite w.tag d s) := (passWrite_keeps _ _ _).mono (by decide)
  unfold receiveStatus
  split
  · exact hpass
  · split
    · split
      · split
        · exact holdForRewriter_keeps _ _ _
        · exact hpass
      · exact ((modCounts_keeps _ _ s).append (passWrite_keeps _ _ _)).mono (by decide)
    · exact hpass
    · exact hpass

theorem receivePeer_keeps (w : WriteTx) (d : List Lane) (s : State) : KeepsAllBut [.path, .sig, .sta] s (receivePeer w d s) := by
  unfold receivePeer
  split
  · exact (passWrite_keeps _ _ _).mono (by decide)
  · exact ((takePeer_keeps _ s).append (passWrite_keeps _ _ _)).mono (by decide)

theorem receiveCommand_keeps (w : WriteTx) (d : List Lane) (s : State) : KeepsAllBut [.path, .cmd, .own] s (receiveCommand w d s) := by
  unfold receiveCommand
  split
  · exact ((keeps_cmd _ s).append (passWrite_keeps _ _ _)).mono (by decide)
  · exact ((keeps_path _ s).append (keeps_cmd _ _)).mono (by decide)

theorem receivePlain_keeps (w : WriteTx) (d : List Lane) (s : State) : KeepsAllBut [.path, .sig] s (receivePlain w d s) := by
  unfold receivePlain countPeerPartial
  split
  · exact ((keeps_sig _ s).append (passWrite_keeps _ _ _)).mono (by decide)
  · exact (passWrite_keeps _ _ _).mono (by decide)

theorem receiveAs_keeps (kind : Reception) (w : WriteTx) (d : List Lane) (s : State) :
    KeepsAllBut (receptionParts kind) s (receiveAs kind w d s) := by
  cases kind with
  | refusal => exact (keeps_path _ s).mono (by decide)
  | record => exact receiveRecord_keeps w d s
  | staging => exact ((trackWrite_keeps w.txn d s).append (passWrite_keeps _ _ _)).mono (by decide)
  | descriptor => exact receiveDescriptor_keeps w d s
  | status => exact receiveStatus_keeps w d s
  | frameStart => exact ((keeps_capture _ s).append (passWrite_keeps _ _ _)).mono (by decide)
  | peer => exact receivePeer_keeps w d s
  | command => exact receiveCommand_keeps w d s
  | commandOther => exact (((keeps_cmd _ s).append (offer_keeps _ _)).append (passWrite_keeps _ _ _)).mono (by decide)
  | tail => exact ((snoopTail_keeps _ s).append (passWrite_keeps _ _ _)).mono (by decide)
  | plain => exact receivePlain_keeps w d s

/-- The parts that the reception of a write touches. -/
def receiveParts : List Block := [.path, .img, .cmd, .own, .sig, .sta, .rew, .capture, .free]

/-- The reception of a write changes nothing, or does what the reception of its kind does. -/
theorem receive_cases (wanted : Reception → Bool) (tag : Nat) (d : List Lane) (s : State) :
    receive wanted tag d s = s ∨ ∃ w, awaited tag d s = some w ∧ receive wanted tag d s = receiveAs (receptionOf s.img w d) w d s := by
  unfold receive
  split
  · exact .inl rfl
  · next w hw =>
    split
    · exact .inr ⟨w, hw, rfl⟩
    · exact .inl rfl

theorem receive_keeps (wanted : Reception → Bool) (tag : Nat) (d : List Lane) (s : State) :
    KeepsAllBut receiveParts s (receive wanted tag d s) := by
  obtain h | ⟨w, -, h⟩ := receive_cases wanted tag d s <;> rw [h]
  · exact .refl _ s
  · exact (receiveAs_keeps _ w d s).mono (by cases receptionOf s.img w d <;> decide)

theorem refuseRecord_keeps (tag : Nat) (cause : RecordCause) (bs : List Byte) (s : State) :
    KeepsAllBut [.img, .path, .free, .cmd, .own] s (refuseRecord tag cause bs s) := by
  rw [refuseRecord_eq]
  refine KeepsAllBut.trans (t := countRefusedRecord tag bs s) ?_ ((offerAll_keeps _ _).mono (by decide))
  intro b hb; cases b <;> first | rfl | exact absurd (by decide) hb

theorem acceptRecord_keeps (tag : Nat) (bs : List Byte) (s : State) : KeepsAllBut [.img, .path, .cmd, .own] s (acceptRecord tag bs s) := by
  unfold acceptRecord
  dsimp only
  split
  · refine KeepsAllBut.trans (t := keepRecord tag bs 0 s) ?_ ((offer_keeps _ _).mono (by decide))
    intro b hb; cases b <;> first | rfl | exact absurd (by decide) hb
  · exact ((keeps_img _ s).append (keeps_path _ _)).mono (by decide)

theorem bootRecordCheck_keeps (s : State) : KeepsAllBut [.img, .path, .free, .cmd, .own] s (bootRecordCheck s) := by
  unfold bootRecordCheck
  split
  · exact .refl _ s
  · dsimp only
    split
    · exact (keeps_img _ s).mono (by decide)
    · split
      · exact ((keeps_img _ s).append (refuseRecord_keeps _ _ _ _)).mono (by decide)
      · exact ((keeps_img _ s).append (acceptRecord_keeps _ _ _)).mono (by decide)

theorem modResolved_keeps (station : Option (Fin 128)) (f : Station → Station) (s : State) :
    KeepsAllBut [.sta] s (modResolved station f s) := by
  cases station with
  | none => exact .refl _ s
  | some i => exact modStation_keeps i f s

theorem discardDescriptor_keeps (d : Descriptor) (station : Option (Fin 128)) (overflow : Bool) (s : State) :
    KeepsAllBut [.rew, .sta] s (discardDescriptor d station overflow s).state := (modCounts_keeps _ _ s).append (modResolved_keeps _ _ _)

theorem parkDescriptor_keeps (d : Descriptor) (i : Fin 128) (s : State) : KeepsAllBut [.rew, .sta] s (parkDescriptor d i s).state :=
  (modCounts_keeps _ _ s).append (modStation_keeps _ _ _)

theorem forwardDescriptor_keeps (d : Descriptor) (role : Role) (station : Option (Fin 128)) (uncaptured unresolved : Bool) (s : State) :
    KeepsAllBut [.rew, .sta] s (forwardDescriptor d role station uncaptured unresolved s).state :=
  (modCounts_keeps _ _ s).append (modResolved_keeps _ _ _)

theorem stampUrgent_keeps (station : Option (Fin 128)) (s : State) : KeepsAllBut [.sta] s (stampUrgent station s) := by
  cases station with
  | none => exact .refl _ s
  | some i => exact modStation_keeps i _ s

theorem chargeUrgent_keeps (slot : Fin 16) (len : Nat) (i : Fin 256) (station : Option (Fin 128)) (s : State) :
    KeepsAllBut [.cls, .adm, .sta] s (chargeUrgent slot len i station s) :=
  ((((keeps_cls _ s).append (keeps_adm _ _)).append (stampUrgent_keeps station _)).append (keeps_adm _ _)).mono (by decide)

theorem admission_keeps (slot : Fin 16) (len : Nat) (answer : ClassAnswer) (station : Option (Fin 128)) (noUrgent : Bool) (s : State) :
    KeepsAllBut [.cls, .adm, .sta] s (admission slot len answer station noUrgent s).2 := by
  unfold admission
  split
  · exact .refl _ s
  · exact .refl _ s
  · exact .refl _ s
  · split
    · exact .refl _ s
    · split
      · exact .refl _ s
      · unfold admitUrgent
        split
        · exact (keeps_adm _ s).mono (by decide)
        · split
          · split
            · exact chargeUrgent_keeps _ _ _ _ s
            · exact (keeps_adm _ s).mono (by decide)
          · exact ((keeps_cls _ s).append (keeps_adm _ _)).mono (by decide)

theorem classifyStep_keeps (d : Descriptor) (cap : Option Capture) (station : Option (Fin 128)) (noUrgent unresolved : Bool) (s : State) :
    KeepsAllBut [.cls, .adm, .sta, .rew] s (classifyStep d cap station noUrgent unresolved s).state :=
  (((keeps_cls _ s).append (admission_keeps _ _ _ _ _ _)).append (forwardDescriptor_keeps _ _ _ _ _ _)).mono (by decide)

theorem parkRequest_keeps (k : Option (Fin 16)) (addr len : Nat) (slot : Fin 16) (s : State) :
    KeepsAllBut [.hold] s (parkRequest k addr len slot s).2 := by
  unfold parkRequest
  split
  · exact .refl _ s
  · split
    · dsimp only
      split
      · exact ((keeps_hold _ s).append (keeps_hold _ _)).mono (by decide)
      · exact keeps_hold _ s
    · exact .refl _ s
    · exact .refl _ s

theorem gateStep_keeps (d : Descriptor) (cap : Capture) (i : Fin 128) (st : Station) (s : State) :
    KeepsAllBut [.cls, .adm, .sta, .rew, .hold] s (gateStep d cap i st s).state := by
  unfold gateStep
  split
  · exact (discardDescriptor_keeps _ _ _ s).mono (by decide)
  · unfold handoffStep
    split
    · dsimp only
      split
      · exact ((parkRequest_keeps _ _ _ _ s).append (parkDescriptor_keeps _ _ _)).mono (by decide)
      · exact ((parkRequest_keeps _ _ _ _ s).append (discardDescriptor_keeps _ _ _ _)).mono (by decide)
    · exact (classifyStep_keeps _ _ _ _ _ s).mono (by decide)

theorem decide5_keeps (d : Descriptor) (s : State) : KeepsAllBut [.capture, .cls, .adm, .sta, .rew, .hold] s (decide5 d s).state := by
  unfold decide5
  split
  · exact (classifyStep_keeps _ _ _ _ _ s).mono (by decide)
  · next c _ =>
    refine KeepsAllBut.append (keeps_capture c s) (cs := [.cls, .adm, .sta, .rew, .hold]) ?_
    unfold stationStep
    split
    · exact (classifyStep_keeps _ _ _ _ _ _).mono (by decide)
    · split
      · exact (classifyStep_keeps _ _ _ _ _ _).mono (by decide)
      · exact gateStep_keeps _ _ _ _ _

theorem descriptorDisposition_keeps (s : State) :
    KeepsAllBut [.rew, .capture, .cls, .adm, .sta, .hold, .path] s (descriptorDisposition s) := by
  unfold descriptorDisposition
  split
  · exact .refl _ s
  · split
    · exact .refl _ s
    · exact ((decide5_keeps _ _).decided _ _).mono (by decide)

theorem decideStatus_keeps (r : StatusRecord) (s : State) : KeepsAllBut [.sig, .sta, .rew, .cmd, .own] s (decideStatus r s).state := by
  have hunknown : KeepsAllBut [.sig, .sta, .rew, .cmd, .own] s (unknownStatus r s).state := by
    unfold unknownStatus
    dsimp only
    split
    · exact (modCounts_keeps _ _ s).mono (by decide)
    · exact ((modCounts_keeps _ _ s).append (meetUnknown_keeps _ _ _ _)).mono (by decide)
  unfold decideStatus
  split
  · exact hunknown
  · split
    · exact hunknown
    · next st _ =>
      cases h : st.closed with
      | true => exact (takenStatus_closed_keeps _ _ _ h).mono (by decide)
      | false => exact (takenStatus_open_keeps _ _ _ h).mono (by decide)

theorem statusDecision_keeps (s : State) : KeepsAllBut [.rew, .sig, .sta, .cmd, .own, .path] s (statusDecision s) := by
  unfold statusDecision
  split
  · exact .refl _ s
  · split
    · exact .refl _ s
    · exact ((decideStatus_keeps _ _).decided _ _).mono (by decide)

theorem takeSample_keeps (i : Fin 128) (st : Station) (raw : Byte) (s : State) :
    KeepsAllBut [.sig, .sta, .cmd, .own] s (takeSample i st raw s) :=
  (((keeps_sig _ s).append (keeps_sta _ _)).append (offerAll_keeps _ _)).mono (by decide)

theorem signalSample_keeps (i : Nat) (s : State) : KeepsAllBut [.sig, .sta, .cmd, .own] s (signalSample i s) := by
  have hsig (x : SignalUnit) : KeepsAllBut [.sig, .sta, .cmd, .own] s { s with sig := x } := (keeps_sig x s).mono (by decide)
  unfold signalSample
  split
  · exact .refl _ s
  · split
    · exact .refl _ s
    · dsimp only
      split
      · exact hsig _
      · split
        · exact hsig _
        · split
          · exact hsig _
          · exact ((keeps_sig _ s).append (takeSample_keeps _ _ _ _)).mono (by decide)

theorem emit_keeps (e : PortEvent) (s : State) : KeepsAllBut [.ports] s (emit e s) := keeps_ports _ s

theorem writeGrant_keeps (s : State) : KeepsAllBut [.own, .path, .ports] s (writeGrant s) := by
  unfold writeGrant
  split
  · intro b hb; cases b <;> first | rfl | exact absurd (by decide) hb
  · split
    · exact .refl _ s
    · intro b hb; cases b <;> first | rfl | exact absurd (by decide) hb

theorem grantSweep_keeps (w : Sweep) (s : State) : KeepsAllBut [.boot, .path, .img, .ports] s (grantSweep w s) := by
  intro b hb; cases b <;> first | rfl | exact absurd (by decide) hb

theorem grantRead_keeps (r : ReadTx) (counts : Bool) (s : State) : KeepsAllBut [.boot, .path, .img, .ports] s (grantRead r counts s) := by
  intro b hb; cases b <;> first | rfl | exact absurd (by decide) hb

theorem readGrant_keeps (s : State) : KeepsAllBut [.boot, .path, .img, .ports] s (readGrant s) := by
  unfold readGrant
  split
  · intro b hb; cases b <;> first | rfl | exact absurd (by decide) hb
  · split
    · split
      · exact grantSweep_keeps _ s
      · exact grantRead_keeps _ _ s
    · exact grantSweep_keeps _ s
    · exact grantRead_keeps _ _ s
    · exact .refl _ s

theorem flush_keeps (id : AxiId) (s : State) : KeepsAllBut [.path, .ports] s (flush id s) := by
  intro b hb; cases b <;> first | rfl | exact absurd (by decide) hb

theorem downResponse_keeps (tag : Nat) (resp : DownResp) (s : State) : KeepsAllBut [.path, .ports] s (downResponse tag resp s) := by
  cases resp with
  | write r =>
    unfold downResponse writeResponse
    dsimp only
    split
    · exact .refl _ s
    · split
      · exact ((keeps_path _ s).append (flush_keeps _ _)).mono (by decide)
      · exact .refl _ s
  | read resps data =>
    unfold downResponse readResponse
    dsimp only
    split
    · exact .refl _ s
    · exact (keeps_path _ s).append (emit_keeps _ _)

theorem refusedResponse_keeps (tag : Nat) (s : State) : KeepsAllBut [.path, .ports] s (refusedResponse tag s) := by
  unfold refusedResponse
  split
  · exact .refl _ s
  · split
    · exact (((keeps_path _ s).append (emit_keeps _ _)).append (flush_keeps _ _)).mono (by decide)
    · exact .refl _ s

theorem dropOwn_keeps (tag : Nat) (s : State) : KeepsAllBut [.own] s (dropOwn tag s) := keeps_own _ s

theorem writeNext_keeps (s : State) : KeepsAllBut [.own] s (writeNext s) := by
  unfold writeNext
  split
  · exact .refl _ s
  · exact keeps_own _ s

theorem reportResponse_keeps (tag : Nat) (resp : Resp) (s : State) : KeepsAllBut [.own, .cmd] s (reportResponse tag resp s) := by
  unfold reportResponse
  split
  · dsimp only
    split
    · exact (((((dropOwn_keeps tag s).append (keeps_cmd _ _)).append (keeps_cmd _ _)).append (keeps_own _ _)).append
        (writeNext_keeps _)).mono (by decide)
    · exact ((((dropOwn_keeps tag s).append (keeps_cmd _ _)).append (keeps_cmd _ _)).append (writeNext_keeps _)).mono (by decide)
  · exact .refl _ s

theorem headResponse_keeps (tag : Nat) (resp : Resp) (s : State) : KeepsAllBut [.own, .cmd] s (headResponse tag resp s) := by
  unfold headResponse
  split
  · dsimp only
    split
    · exact (dropOwn_keeps tag s).mono (by decide)
    · exact (dropOwn_keeps tag s).append (keeps_cmd _ _)
  · exact .refl _ s

theorem dumpResponse_keeps (tag : Nat) (resp : Resp) (s : State) : KeepsAllBut [.hold, .own, .cmd, .path] s (dumpResponse tag resp s) := by
  unfold dumpResponse
  split
  · split
    · have hcount : KeepsAllBut [.own, .hold] s (if resp = .okay then dropOwn tag s else
          { dropOwn tag s with hold := { s.hold with dumpFaults := satInc count32 s.hold.dumpFaults } }) := by
        split
        · exact (dropOwn_keeps tag s).mono (by decide)
        · exact (dropOwn_keeps tag s).append (keeps_hold _ _)
      dsimp only
      split
      · exact (hcount.append (finishDump_keeps _ _ _)).mono (by decide)
      · exact (hcount.append (keeps_hold _ _)).mono (by decide)
    · exact .refl _ s
    · exact .refl _ s
  · exact .refl _ s

theorem setExecuting_keeps (e : Executing) (s : State) : KeepsAllBut [.cmd] s (setExecuting e s) := keeps_cmd _ s

theorem statsResponse_keeps (tag : Nat) (resp : Resp) (s : State) : KeepsAllBut commandParts s (statsResponse tag resp s) := by
  unfold statsResponse
  split
  · dsimp only
    split
    · exact (((dropOwn_keeps tag s).append (offer_keeps _ _)).append (completeCommand_keeps _ _ _)).mono (by decide)
    · exact ((dropOwn_keeps tag s).append (setExecuting_keeps _ _)).mono (by decide)
  · exact .refl _ s

theorem sweepStart_keeps (s : State) : KeepsAllBut [.img] s (sweepStart s) := by
  unfold sweepStart
  split
  · exact .refl _ s
  · split
    · exact keeps_img _ s
    · exact .refl _ s

theorem finishSweep_keeps (result : VerifyResult) (state : StagingState) (crc : Word) (offset : Nat) (s : State) :
    KeepsAllBut [.path, .img, .cmd, .own] s (finishSweep result state crc offset s) :=
  ((keeps_path _ s).append (keeps_img _ _)).append (offer_keeps _ _)

theorem sweepReadReturn_keeps (tag : Nat) (resps : List Resp) (data : List Byte) (s : State) :
    KeepsAllBut [.img, .path, .cmd, .own] s (sweepReadReturn tag resps data s) := by
  have hset (g : Staging) : KeepsAllBut [.img, .path, .cmd, .own] s (setStaging g s) := (keeps_img _ s).mono (by decide)
  unfold sweepReadReturn
  split
  · exact hset _
  · split
    · exact .refl _ s
    · split
      · unfold sweepData
        dsimp only
        split
        · split
          · split
            · exact ((keeps_img _ s).append (finishSweep_keeps _ _ _ _ _)).mono (by decide)
            · exact (finishSweep_keeps _ _ _ _ s).mono (by decide)
          · exact hset _
        · exact (finishSweep_keeps _ _ _ _ s).mono (by decide)
      · exact .refl _ s

theorem uptimeSecond_keeps (s : State) : KeepsAllBut [.time] s (uptimeSecond s) := by
  unfold uptimeSecond
  split
  · exact keeps_time _ s
  · exact .refl _ s

theorem flowAging_keeps (s : State) : KeepsAllBut [.cls, .time] s (flowAging s) := by
  unfold flowAging
  split
  · intro b hb; cases b <;> first | rfl | exact absurd (by decide) hb
  · exact .refl _ s

theorem foldl_keeps {α : Type} {bs : List Block} {f : State → α → State} (h : ∀ s a, KeepsAllBut bs s (f s a)) (l : List α) (s : State) :
    KeepsAllBut bs s (l.foldl f s) := by
  induction l generalizing s with
  | nil => exact .refl bs s
  | cons a l ih => exact (h s a).trans (ih _)

theorem visitFor_keeps (state : Roam) (s : State) : KeepsAllBut [.sta, .hold, .own, .cmd, .path, .time] s (visitFor state s) := by
  unfold visitFor
  split
  · exact (foldl_keeps (fun s i => visitStation_keeps i s) _ s).append (keeps_time _ _)
  · exact .refl _ s

theorem mapStations_keeps (f : Station → Station) (s : State) : KeepsAllBut [.sta] s (mapStations f s) := keeps_sta _ s

theorem boundarySteps_keeps (s : State) : KeepsAllBut [.sched, .sta, .img, .cmd, .own] s (boundarySteps s) := by
  have hroll (u : State) : KeepsAllBut [.sta] u (if s.sched.clock.rollsOver then rollover u else u) := by
    split
    · exact ((mapStations_keeps _ u).append (keeps_sta _ _)).mono (by decide)
    · exact .refl _ u
  have hcommit (u : State) : KeepsAllBut [.sched, .sta, .cmd, .own] u (applyCommit u) := by
    unfold applyCommit
    split
    · exact .refl _ u
    · exact ((keeps_sched _ u).append (mapStations_keeps _ _)).append (offer_keeps _ _)
  have hcheck (u : State) : KeepsAllBut [.img, .cmd, .own] u (checkActivation u) := by
    unfold checkActivation
    split
    · exact (keeps_img _ u).append (offer_keeps _ _)
    · exact .refl _ u
  have hwarm (u : State) : KeepsAllBut [.sta, .cmd, .own] u (warnLow u) := (mapStations_keeps _ u).append (offerAll_keeps _ _)
  exact ((((((((mapStations_keeps _ s).append (mapStations_keeps _ _)).append (hwarm _)).append (hroll _)).append
    (hcommit _)).append (mapStations_keeps _ _)).append (hcheck _)).append (offerAll_keeps _ _)).mono (by decide)

theorem takeBoundary_keeps (s : State) : KeepsAllBut [.sched, .sta, .img, .cmd, .own] s (takeBoundary s) :=
  ((keeps_sched _ s).append (boundarySteps_keeps _)).mono (by decide)

theorem minuteBoundary_keeps (s : State) : KeepsAllBut [.sched, .sta, .img, .cmd, .own] s (minuteBoundary s) := by
  unfold minuteBoundary
  split
  · split
    · unfold boundaryInReset
      dsimp only
      split
      · intro b hb; cases b <;> first | rfl | exact absurd (by decide) hb
      · exact (keeps_sched _ s).mono (by decide)
    · exact takeBoundary_keeps s
  · exact .refl _ s

theorem lineEdge_keeps (s : State) : KeepsAllBut [.sched, .sta, .img, .cmd, .own] s (lineEdge s) := by
  have hpause (v : Bool) (u : State) : KeepsAllBut [.sta, .cmd, .own] u (pauseEdge v u) :=
    (((mapStations_keeps _ u).append (offer_keeps _ _)).append (offerAll_keeps _ _)).mono (by decide)
  have hsync (u : State) : KeepsAllBut [.sched, .sta, .img, .cmd, .own] u (syncEdge u) := by
    unfold syncEdge
    dsimp only
    split
    · exact (((offer_keeps _ u).append (keeps_sched _ _)).append (takeBoundary_keeps _)).mono (by decide)
    · exact ((keeps_sched _ u).append (offer_keeps _ _)).mono (by decide)
  have hlevel := keeps_sched { s.sched with line := { s.sched.line with level := !s.sched.line.level, run := 0 } } s
  unfold lineEdge
  dsimp only
  split
  · split
    · exact hlevel.mono (by decide)
    · split
      · exact (hlevel.append (hpause _ _)).mono (by decide)
      · split
        · exact (hlevel.append (hpause _ _)).mono (by decide)
        · exact (hlevel.append (offer_keeps _ _)).mono (by decide)
    · split
      · exact (hlevel.append (hsync _)).mono (by decide)
      · exact hlevel.mono (by decide)
  · exact .refl _ s

theorem applyStaged_keeps (s : State) : KeepsAllBut [.adm, .cmd, .own] s (applyStaged s) := by
  unfold applyStaged
  dsimp only
  split
  · exact ((((keeps_adm _ s).append (offer_keeps _ _)).append (keeps_adm _ _)).append (offerAll_keeps _ _)).mono (by decide)
  · exact (keeps_adm _ s).append (offerAll_keeps _ _)

theorem demoteFlows_keeps (s : State) : KeepsAllBut [.cls, .adm, .cmd, .own] s (demoteFlows s) := by
  unfold demoteFlows
  dsimp only
  refine KeepsAllBut.trans ?_ ((offerAll_keeps _ _).mono (by decide))
  intro b hb; cases b <;> first | rfl | exact absurd (by decide) hb

theorem clearPeriod_keeps (s : State) : KeepsAllBut [.cls, .adm] s (clearPeriod s) := by
  intro b hb; cases b <;> first | rfl | exact absurd (by decide) hb

theorem pacingBoundary_keeps (s : State) : KeepsAllBut [.adm, .cls, .cmd, .own] s (pacingBoundary s) := by
  unfold pacingBoundary
  split
  · exact (((((keeps_adm _ s).append (applyStaged_keeps _)).append (demoteFlows_keeps _)).append (clearPeriod_keeps _)).append
      (keeps_adm _ _)).mono (by decide)
  · exact .refl _ s

theorem unknownCommand_keeps (s : State) : KeepsAllBut commandParts s (unknownCommand s) := by
  unfold unknownCommand
  split
  · split
    · exact .refl _ s
    · exact completeCommand_keeps _ _ s
  · exact .refl _ s

/-- The parts that STATION_CLEAR and HANDOFF_END touch. -/
def releaseParts : List Block := [.sta, .hold, .own, .cmd, .path, .cls]

theorem clearFlows_keeps (i : Fin 128) (s : State) : KeepsAllBut [.cls, .cmd] s (clearFlows i s) :=
  (keeps_cls _ s).append (setExecuting_keeps _ _)

theorem clearStep_keeps (s : State) : KeepsAllBut releaseParts s (clearStep s) := by
  unfold clearStep
  split
  · split
    · exact .refl _ s
    · exact (clearFlows_keeps _ s).mono (by decide)
  · split
    · exact .refl _ s
    · exact (((keeps_cls _ s).append (keeps_sta _ _)).append (completeCommand_keeps _ _ _)).mono (by decide)
  all_goals exact .refl _ s

theorem stationClear_keeps (p : List Byte) (s : State) : KeepsAllBut releaseParts s (stationClear p s) := by
  have hend (status : Status) : KeepsAllBut releaseParts s (completeCommand status [] s) :=
    (completeCommand_keeps _ _ s).mono (by decide)
  unfold stationClear
  split
  · exact hend _
  · split
    · exact hend _
    · split
      · exact ((setExecuting_keeps _ s).append (takeRelease_keeps _ _ _ _ _ _)).mono (by decide)
      · exact (clearFlows_keeps _ s).mono (by decide)

theorem handoffEnd_keeps (p : List Byte) (s : State) : KeepsAllBut releaseParts s (handoffEnd p s) := by
  have hend (status : Status) : KeepsAllBut releaseParts s (completeCommand status [] s) :=
    (completeCommand_keeps _ _ s).mono (by decide)
  unfold handoffEnd
  split
  · split
    · exact hend _
    · split
      · exact hend _
      · exact ((setExecuting_keeps _ s).append (takeRelease_keeps _ _ _ _ _ _)).mono (by decide)
  · exact hend _

/-- The parts that STATS touches. -/
def statsParts : List Block := [.free, .capture, .cls, .adm, .sig, .hold, .img, .rew, .sta, .cmd, .own, .path]

theorem clearSection_keeps (sec : Nat) (s : State) : KeepsAllBut statsParts s (clearSection sec s) := by
  unfold clearSection
  split
  · intro b hb; cases b <;> first | rfl | exact absurd (by decide) hb
  · split
    · intro b hb; cases b <;> first | rfl | exact absurd (by decide) hb
    · split
      · exact .refl _ s
      · exact (foldl_keeps (fun s i => modStation_keeps i clearCounts s) _ s).mono (by decide)

theorem takeSection_keeps (sec : Nat) (clear : Bool) (s : State) : KeepsAllBut statsParts s (takeSection sec clear s) := by
  have hclear (u : State) : KeepsAllBut statsParts u (if clear then clearSection sec u else u) := by
    split
    · exact clearSection_keeps sec u
    · exact .refl _ u
  have hrequests (ws : List OwnWrite) (u : State) : KeepsAllBut [.own] u (ws.foldl (fun s w => request w s) u) :=
    foldl_keeps (fun u w => keeps_own _ u) ws u
  exact ((((keeps_free _ s).append (hclear _)).append (hrequests _ _)).append (setExecuting_keeps _ _)).mono (by decide)

theorem stats_keeps (p : List Byte) (s : State) : KeepsAllBut statsParts s (stats p s) := by
  have hend : KeepsAllBut statsParts s (completeCommand .refusedRange [] s) := (completeCommand_keeps _ _ s).mono (by decide)
  unfold stats
  split
  · exact hend
  · split
    · exact takeSection_keeps _ _ s
    · exact hend

theorem tick_keeps (lineIn : Bool) (s : State) : KeepsAllBut [.time, .sched, .adm] s (tick lineIn s) := by
  unfold tick
  split
  · exact .refl _ s
  · split
    · exact (keeps_sched _ s).mono (by decide)
    · intro b hb; cases b <;> first | rfl | exact absurd (by decide) hb

end Frames

/-! ### The table of the events -/

/-- The parts that an event of the ports, of the clocks or of a block may change, and of the three commands that take several events. -/
def eventParts : Instr → List Block
  | .powerOnReset | .warmReset =>
    [.pins, .boot, .path, .own, .win, .capture, .sta, .time, .sched, .cls, .adm, .rew, .sig, .hold, .img, .cmd]
  | .resetRelease _ _ => [.pins, .boot, .win]
  | .abandonedResponse _ | .upstreamReadArrival _ => [.path]
  | .bootRecordReadIssue => [.boot]
  | .bootRecordReadComplete _ _ => [.boot, .img, .own, .cmd]
  | .upstreamWriteArrival _ => [.path, .img, .cmd, .own]
  | .upstreamWriteReceived _ _ | .frameStartWrite _ _ | .peerRecord _ _ | .commandCapture _ _ | .tailWordWrite _ _
  | .stagingWriteTracked _ _ => receiveParts
  | .bootRecordCheck => [.img, .path, .free, .cmd, .own]
  | .descriptorDisposition => [.rew, .capture, .cls, .adm, .sta, .hold, .path]
  | .statusRecordDecision => [.rew, .sig, .sta, .cmd, .own, .path]
  | .signalSample _ => [.sig, .sta, .cmd, .own]
  | .writeSideGrant => [.own, .path, .ports]
  | .readSideGrant => [.boot, .path, .img, .ports]
  | .downstreamResponse _ _ | .refusedWriteResponse _ => [.path, .ports]
  | .reportRecordResponse _ _ | .headWordResponse _ _ => [.own, .cmd]
  | .dumpWriteResponse _ _ => [.hold, .own, .cmd, .path]
  | .statsWriteResponse _ _ | .unknownCommand => commandParts
  | .sweepStart => [.img]
  | .sweepReadReturn _ _ _ => [.img, .path, .cmd, .own]
  | .uptimeSecond => [.time]
  | .flowAging => [.cls, .time]
  | .candidateExpired | .holdoffExpiry | .handoffTimeout => [.sta, .hold, .own, .cmd, .path, .time]
  | .minuteBoundary | .lineEdge => [.sched, .sta, .img, .cmd, .own]
  | .pacingPeriodBoundary => [.adm, .cls, .cmd, .own]
  | .stationClear | .handoffEnd => releaseParts
  | .stats => statsParts
  | .tick _ => [.time, .sched, .adm]
  | _ => []

/-- The parts that an event may change. -/
def touched (c : Instr) : List Block := (atOnceOf c).elim (eventParts c) fun a => a.parts ++ commandParts

theorem execStationClear_keeps (s : State) {t : State} (h : execStationClear s = .next t) : KeepsAllBut releaseParts s t := by
  cases h
  split
  · exact runCommand_keeps 0x06 s (by decide) fun p => stationClear_keeps p s
  · exact clearStep_keeps s

/-- What an event changes stands in the table. -/
theorem exec_keeps {c : Instr} {s t : State} (h : exec c s = .next t) : KeepsAllBut (touched c) s t := by
  cases ha : atOnceOf c with
  | some a =>
    rw [exec_atOnce ha] at h
    cases h
    rw [touched, ha]
    exact runCommand_keeps a.code s (fun b hb => List.mem_append_right _ hb) fun p => atOnce_keeps a.spec p s
  | none =>
    rw [touched, ha]
    cases c with
    | powerOnReset => cases h; exact powerOnReset_keeps s
    | warmReset => cases h; exact warmReset_keeps s
    | resetRelease pin sel => cases h; exact resetRelease_keeps pin sel s
    | abandonedResponse tag => cases h; exact keeps_path _ s
    | bootRecordReadIssue => cases h; exact bootReadIssue_keeps s
    | bootRecordReadComplete resps data => cases h; exact bootReadComplete_keeps resps data s
    | upstreamWriteArrival a => cases h; exact writeArrival_keeps a s
    | upstreamReadArrival a => cases h; exact readArrival_keeps a s
    | upstreamWriteReceived tag d => cases h; exact receive_keeps _ tag d s
    | frameStartWrite tag d => cases h; exact receive_keeps _ tag d s
    | peerRecord tag d => cases h; exact receive_keeps _ tag d s
    | commandCapture tag d => cases h; exact receive_keeps _ tag d s
    | tailWordWrite tag d => cases h; exact receive_keeps _ tag d s
    | stagingWriteTracked tag d => cases h; exact receive_keeps _ tag d s
    | bootRecordCheck => cases h; exact bootRecordCheck_keeps s
    | descriptorDisposition => cases h; exact descriptorDisposition_keeps s
    | statusRecordDecision => cases h; exact statusDecision_keeps s
    | signalSample i => cases h; exact signalSample_keeps i s
    | writeSideGrant => cases h; exact writeGrant_keeps s
    | readSideGrant => cases h; exact readGrant_keeps s
    | downstreamResponse tag resp => cases h; exact downResponse_keeps tag resp s
    | refusedWriteResponse tag => cases h; exact refusedResponse_keeps tag s
    | reportRecordResponse tag resp => cases h; exact reportResponse_keeps tag resp s
    | headWordResponse tag resp => cases h; exact headResponse_keeps tag resp s
    | dumpWriteResponse tag resp => cases h; exact dumpResponse_keeps tag resp s
    | statsWriteResponse tag resp => cases h; exact statsResponse_keeps tag resp s
    | sweepStart => cases h; exact sweepStart_keeps s
    | sweepReadReturn tag resps data => cases h; exact sweepReadReturn_keeps tag resps data s
    | uptimeSecond => cases h; exact uptimeSecond_keeps s
    | flowAging => cases h; exact flowAging_keeps s
    | candidateExpired => cases h; exact visitFor_keeps _ s
    | holdoffExpiry => cases h; exact visitFor_keeps _ s
    | handoffTimeout => cases h; exact visitFor_keeps _ s
    | minuteBoundary => cases h; exact minuteBoundary_keeps s
    | lineEdge => cases h; exact lineEdge_keeps s
    | pacingPeriodBoundary => cases h; exact pacingBoundary_keeps s
    | unknownCommand => cases h; exact unknownCommand_keeps s
    | stationClear => exact execStationClear_keeps s h
    | handoffEnd => cases h; exact runCommand_keeps 0x1B s (by decide) fun p => handoffEnd_keeps p s
    | stats => cases h; exact runCommand_keeps 0x20 s (by decide) fun p => stats_keeps p s
    | tick lineIn => cases h; exact tick_keeps lineIn s
    | _ => exact absurd ha nofun

/-! ### Properties kept by every step -/

/-- A property of all parts but the queue of events that every event keeps is kept by every step. -/
theorem step_keeps_of_exec {inv : State → Prop} (hq : ∀ s q, inv s → inv (s.withPending q))
    (h : ∀ c s t, inv s → exec c s = .next t → inv t) (s t : State) (hs : inv s) (ht : step s = .next t) : inv t := by
  unfold step at ht
  split at ht
  · cases ht; exact hs
  · exact h _ _ t (hq s _ hs) ht

end Sys2Proof.Machine

/-! SUPPORT. The rings (R159, R162, R163): what each shared operation makes of `RingInv`, each event that reaches the Command Unit, the own
writes or the handles, and the obligation O58. -/

namespace Sys2Proof.Machine

open Sys2Proof

/-! ### What the invariant depends on -/

/-- The two states agree in what `RingInv` depends on; the next handle may have advanced. -/
structure SameRings (s t : State) : Prop where
  queue   : t.cmd.queue = s.cmd.queue
  head    : t.cmd.head = s.cmd.head
  tail    : t.cmd.tail = s.cmd.tail
  waiting : t.cmd.waiting = s.cmd.waiting
  lost    : t.cmd.lost = s.cmd.lost
  own     : t.own = s.own
  next    : s.path.nextTag ≤ t.path.nextTag

section Rings

variable {s t : State}

theorem RingInv.same (hs : RingInv s) (h : SameRings s t) : RingInv t := by
  obtain ⟨hq, hh, ht, hw, hu, hl, hf, hn, htag⟩ := hs
  rw [← h.queue] at hq
  rw [← h.head] at hh hu
  rw [← h.tail] at ht hu
  rw [← h.waiting] at hw hu hf
  rw [← h.lost] at hl
  rw [← h.own] at hf hn htag
  exact ⟨hq, hh, ht, hw, hu, hl, hf, hn, fun e he => (htag e he).trans_le h.next⟩

theorem RingInv.keep {bs : List Block} (hs : RingInv s) (h : KeepsAllBut bs s t)
    (hb : Block.cmd ∉ bs ∧ Block.own ∉ bs ∧ Block.path ∉ bs) : RingInv t := by
  have hc : t.cmd = s.cmd := h .cmd hb.1
  have ho : t.own = s.own := h .own hb.2.1
  have hp : t.path = s.path := h .path hb.2.2
  exact hs.same ⟨by rw [hc], by rw [hc], by rw [hc], by rw [hc], by rw [hc], ho, by rw [hp]⟩

/-- A change of the path that keeps the next handle. -/
theorem RingInv.path {bs : List Block} (hs : RingInv s) (h : KeepsAllBut bs s t) (hb : Block.cmd ∉ bs ∧ Block.own ∉ bs)
    (hn : s.path.nextTag ≤ t.path.nextTag) : RingInv t := by
  have hc : t.cmd = s.cmd := h .cmd hb.1
  exact hs.same ⟨by rw [hc], by rw [hc], by rw [hc], by rw [hc], by rw [hc], h .own hb.2, hn⟩

theorem ringInv_initial (h : s.cmd = CommandUnit.initial) (ho : s.own = OwnPort.initial) : RingInv s := by
  simp [RingInv, h, ho, CommandUnit.initial, OwnPort.initial, reportsInFlight]

/-! ### Own writes and reports -/

theorem request_inFlight {w : OwnWrite} (hk : w.kind ≠ .report) : reportsInFlight (request w s).own = reportsInFlight s.own := by
  simp [reportsInFlight, Machine.request, hk]

theorem RingInv.request (hs : RingInv s) {w : OwnWrite} (hk : w.kind ≠ .report) : RingInv (request w s) := by
  obtain ⟨hq, hh, ht, hw, hu, hl, hf, hn, htag⟩ := hs
  exact ⟨hq, hh, ht, hw, hu, hl, (request_inFlight hk).trans hf, hn, htag⟩

theorem RingInv.requests {ws : List OwnWrite} (hk : ∀ w ∈ ws, w.kind ≠ .report) {s : State} (hs : RingInv s) :
    RingInv (ws.foldl (fun s w => Machine.request w s) s) := by
  induction ws generalizing s with
  | nil => exact hs
  | cons w ws ih => exact ih (fun v hv => hk v (List.mem_cons_of_mem w hv)) (hs.request (hk w List.mem_cons_self))

theorem room_iff (c : CommandUnit) :
    room c = true ↔ (c.head + 256 - c.tail) % 256 + c.waiting.length < 255 ∧ c.waiting.length < 16 := by
  rw [room, Bool.and_eq_true, decide_eq_true_iff, decide_eq_true_iff, freeSpace, Config.waitingLimit]
  omega

/-- The write of a report is in flight exactly from the report that finds the waiting list empty. -/
theorem appendReport_inFlight (r : Report) (hf : reportsInFlight s.own = if s.cmd.waiting = [] then 0 else 1) :
    reportsInFlight (appendReport r s).own = 1 := by
  unfold appendReport
  cases hw : s.cmd.waiting with
  | nil =>
    rw [hw, if_pos rfl, reportsInFlight] at hf
    simp only [List.isEmpty_nil, if_true, reportsInFlight, requestReport, Machine.request, List.countP_append, List.countP_singleton,
      beq_self_eq_true]
    omega
  | cons w ws =>
    rw [hw, if_neg (List.cons_ne_nil w ws)] at hf
    exact hf

theorem RingInv.appendReport (hs : RingInv s) (r : Report) (hroom : room s.cmd = true) : RingInv (appendReport r s) := by
  obtain ⟨hused, hlen⟩ := (room_iff _).1 hroom
  obtain ⟨hq, hh, ht, hw, hu, hl, hf, hn, htag⟩ := hs
  have hcmd : (Machine.appendReport r s).cmd = { s.cmd with waiting := s.cmd.waiting ++ [⟨r, s.now⟩] } := by
    unfold Machine.appendReport; dsimp only; split <;> rfl
  have hissued : (Machine.appendReport r s).own.issued = s.own.issued := by
    unfold Machine.appendReport; dsimp only; split <;> rfl
  rw [RingInv, hcmd, hissued, appendReport_inFlight r hf, appendReport_path]
  have hne : s.cmd.waiting ++ [⟨r, s.now⟩] ≠ [] := List.append_ne_nil_of_right_ne_nil _ (List.cons_ne_nil _ _)
  simp only [List.length_append, List.length_singleton]
  exact ⟨hq, hh, ht, by omega, by omega, hl, (if_neg hne).symm, hn, htag⟩

theorem RingInv.setLost (hs : RingInv s) {n : Nat} (hn : n ≤ 65535) : RingInv { s with cmd := { s.cmd with lost := n } } := by
  obtain ⟨hq, hh, ht, hw, hu, -, hrest⟩ := hs
  exact ⟨hq, hh, ht, hw, hu, hn, hrest⟩

theorem RingInv.offerLost (hs : RingInv s) : RingInv (offerLost s) := by
  unfold Machine.offerLost
  dsimp only
  split
  · next h => exact (hs.appendReport _ h.2).setLost (Nat.zero_le _)
  · exact hs

theorem RingInv.offer (hs : RingInv s) (r : Report) : RingInv (offer r s) := by
  unfold Machine.offer
  dsimp only
  split
  · next h => exact hs.offerLost.appendReport r h
  · exact hs.offerLost.setLost (Nat.min_le_right _ _)

theorem RingInv.offerAll {s : State} (hs : RingInv s) (rs : List Report) : RingInv (offerAll rs s) := by
  induction rs generalizing s with
  | nil => exact hs
  | cons r rs ih => exact ih (hs.offer r)

/-- Reports offered, in a state whose path has the same handles. -/
theorem RingInv.reports {bs : List Block} {rs : List Report} (hs : RingInv s) (h : Reports bs rs s t)
    (hn : s.path.nextTag ≤ t.path.nextTag) : RingInv t := by
  obtain ⟨hc, ho, -⟩ := h
  refine (hs.offerAll rs).same ⟨by rw [hc], by rw [hc], by rw [hc], by rw [hc], by rw [hc], ho, ?_⟩
  rwa [offerAll_path]

/-! ### The end of a command -/

theorem RingInv.capture (hs : RingInv s) (bytes : List Byte) (h : s.cmd.queue.length < 8) : RingInv (capture bytes s) := by
  obtain ⟨-, hrest⟩ := hs
  refine ⟨?_, hrest⟩
  rw [Machine.capture, List.length_append, List.length_singleton]
  exact h

theorem RingInv.captureHeld (hs : RingInv s) : RingInv (captureHeld s) := by
  unfold Machine.captureHeld
  split
  · exact hs
  · next tag rest _ =>
    have hheld : RingInv { s with cmd := { s.cmd with held := rest } } := hs.same ⟨rfl, rfl, rfl, rfl, rfl, rfl, le_rfl⟩
    split
    · next hlt =>
      split
      · exact hheld
      · exact (hheld.capture _ hlt).path (keeps_path _ _) (by decide) le_rfl
    · exact hs

theorem RingInv.completeCommand (hs : RingInv s) (status : Status) (result : List Byte) : RingInv (completeCommand status result s) := by
  unfold Machine.completeCommand
  split
  · exact hs
  · refine RingInv.captureHeld ?_
    obtain ⟨hq, hrest⟩ := hs.offer _
    exact ⟨(List.length_tail.trans_le (Nat.sub_le _ 1)).trans hq, hrest⟩

theorem RingInv.setExecuting (hs : RingInv s) (e : Executing) : RingInv (setExecuting e s) :=
  hs.same ⟨rfl, rfl, rfl, rfl, rfl, rfl, le_rfl⟩

theorem RingInv.runCommand (hs : RingInv s) {code : Nat} {owner : List Byte → State → State} (h : ∀ p, RingInv (owner p s)) :
    RingInv (runCommand code owner s) := by
  obtain he | ⟨-, -, c, -, -, he | he⟩ := runCommand_cases code owner s <;> rw [he]
  · exact hs
  · exact hs.completeCommand _ _
  · exact h _

/-- An owner of a command that answers at once leaves the path as it is, or sets W to 0 (R153). -/
theorem atOnceOf_path {c : Instr} {a : AtOnce} (h : atOnceOf c = some a) (p : List Byte) (s : State) :
    (a.owner p s).state.path = s.path ∨ (a.owner p s).state.path = { s.path with sweepWait := 0 } := by
  cases hb : decide (Block.path ∈ a.parts ++ reportParts) with
  | false =>
    obtain ⟨rs, hr⟩ := a.spec p s
    exact .inl (hr.keeps .path (of_decide_eq_false hb))
  | true =>
    cases c with
    | stageCancel =>
      cases h
      dsimp only [stageCancel]
      split
      · exact .inl rfl
      · exact .inr rfl
    | _ => cases h <;> exact absurd hb (by decide)

/-! ### Own writes granted and answered -/

/-- Of writes named by different tags, one that is answered leaves alone. -/
theorem countP_drop_tag {l : List (Nat × OwnKind)} {e : Nat × OwnKind} {tag : Nat} (p : Nat × OwnKind → Bool) (hn : (l.map Prod.fst).Nodup)
    (h : (l.find? fun e => e.1 == tag) = some e) : l.countP p = (l.filter fun e => e.1 != tag).countP p + if p e then 1 else 0 := by
  induction l with
  | nil => cases h
  | cons x l ih =>
    rw [List.map_cons, List.nodup_cons] at hn
    by_cases hx : x.1 = tag
    · rw [List.find?_cons_of_pos (by simpa using hx)] at h
      cases h
      have hrest : l.filter (fun e => e.1 != tag) = l := by
        refine List.filter_eq_self.2 fun y hy => bne_iff_ne.2 fun hy' => hn.1 ?_
        rw [hx, ← hy']
        exact List.mem_map_of_mem hy
      rw [List.filter_cons_of_neg (by simpa using hx), hrest, List.countP_cons]
    · rw [List.find?_cons_of_neg (by simpa using hx)] at h
      rw [List.filter_cons_of_pos (by simpa using hx), List.countP_cons, List.countP_cons, ih hn.2 h]
      omega

theorem dropOwn_inFlight {tag : Nat} {k : OwnKind} (hn : (s.own.issued.map Prod.fst).Nodup) (h : ownKind s tag = some k) :
    reportsInFlight s.own = reportsInFlight (dropOwn tag s).own + if k = .report then 1 else 0 := by
  obtain ⟨e, he, rfl⟩ := Option.map_eq_some_iff.1 h
  have hcount := countP_drop_tag (fun e => e.2 == OwnKind.report) hn he
  simp only [reportsInFlight, dropOwn, hcount, beq_iff_eq]
  omega

theorem dropOwn_tags (hs : RingInv s) (tag : Nat) :
    ((dropOwn tag s).own.issued.map Prod.fst).Nodup ∧ ∀ e ∈ (dropOwn tag s).own.issued, e.1 < s.path.nextTag := by
  obtain ⟨-, -, -, -, -, -, -, hn, htag⟩ := hs
  exact ⟨hn.sublist (List.filter_sublist.map _), fun e he => htag e (List.mem_of_mem_filter he)⟩

theorem RingInv.dropOwn (hs : RingInv s) {tag : Nat} {k : OwnKind} (h : ownKind s tag = some k) (hk : k ≠ .report) :
    RingInv (dropOwn tag s) := by
  have htags := dropOwn_tags hs tag
  obtain ⟨hq, hh, ht, hw, hu, hl, hf, hn, -⟩ := hs
  have hcount := dropOwn_inFlight hn h
  rw [if_neg hk] at hcount
  exact ⟨hq, hh, ht, hw, hu, hl, hcount.symm.trans hf, htags⟩

theorem RingInv.grantOwn (hs : RingInv s) {o : OwnWrite} {rest : List OwnWrite} (h : s.own.requests = o :: rest) :
    RingInv (grantOwn o rest s) := by
  obtain ⟨hq, hh, ht, hw, hu, hl, hf, hn, htag⟩ := hs
  refine ⟨hq, hh, ht, hw, hu, hl, Eq.trans ?_ hf, ?_, fun e he => ?_⟩
  · simp only [Machine.grantOwn, emit, reportsInFlight, h, List.countP_append, List.countP_cons, List.countP_nil]
    omega
  · simp only [Machine.grantOwn, emit, List.map_append, List.map_cons, List.map_nil]
    refine List.nodup_append.2 ⟨hn, List.nodup_singleton _, fun a ha b hb => ?_⟩
    obtain ⟨e, he, rfl⟩ := List.mem_map.1 ha
    rw [List.mem_singleton.1 hb]
    exact (htag e he).ne
  · rcases List.mem_append.1 he with he | he
    · exact (htag e he).trans (Nat.lt_succ_self _)
    · rw [List.mem_singleton.1 he]
      exact Nat.lt_succ_self _

theorem writeNext_inFlight (s : State) :
    reportsInFlight (writeNext s).own = reportsInFlight s.own + if s.cmd.waiting = [] then 0 else 1 := by
  unfold writeNext
  cases hw : s.cmd.waiting with
  | nil => rfl
  | cons w ws =>
    rw [if_neg (List.cons_ne_nil w ws)]
    simp only [requestReport, Machine.request, reportsInFlight, List.countP_append, List.countP_singleton, beq_self_eq_true, if_true]
    omega

theorem writeNext_issued (s : State) : (writeNext s).own.issued = s.own.issued := by
  unfold writeNext
  split <;> rfl

/-- With no report in flight the next one is written. -/
theorem RingInv.writeNext (hq : s.cmd.queue.length ≤ 8) (hh : s.cmd.head < 256) (ht : s.cmd.tail < 256) (hw : s.cmd.waiting.length ≤ 16)
    (hu : (s.cmd.head + 256 - s.cmd.tail) % 256 + s.cmd.waiting.length ≤ 255) (hl : s.cmd.lost ≤ 65535) (hf : reportsInFlight s.own = 0)
    (hn : (s.own.issued.map Prod.fst).Nodup) (htag : ∀ e ∈ s.own.issued, e.1 < s.path.nextTag) : RingInv (writeNext s) := by
  have hcmd : (Machine.writeNext s).cmd = s.cmd := writeNext_keeps s .cmd (by decide)
  have hpath : (Machine.writeNext s).path = s.path := writeNext_keeps s .path (by decide)
  have hcount := writeNext_inFlight s
  rw [hf, Nat.zero_add] at hcount
  rw [RingInv, hcmd, hpath, hcount, writeNext_issued]
  exact ⟨hq, hh, ht, hw, hu, hl, rfl, hn, htag⟩

/-- The slot of a record that answers leaves the waiting list, and with OKAY comes into use (R163). -/
theorem RingInv.reportResponse (hs : RingInv s) (tag : Nat) (resp : Resp) : RingInv (reportResponse tag resp s) := by
  unfold Machine.reportResponse
  split
  · next hk =>
    have htags := dropOwn_tags hs tag
    obtain ⟨hq, hh, ht, hw, hu, hl, hf, hn, -⟩ := hs
    have hcount := dropOwn_inFlight hn hk
    rw [if_pos rfl] at hcount
    cases hwait : s.cmd.waiting with
    | nil => rw [hwait, if_pos rfl] at hf; omega
    | cons w ws =>
      rw [hwait, if_neg (List.cons_ne_nil w ws)] at hf
      rw [hwait, List.length_cons] at hw hu
      have hnone : reportsInFlight (Machine.dropOwn tag s).own = 0 := by omega
      have hpop : (popWaiting (Machine.dropOwn tag s)).cmd.waiting = ws := congrArg List.tail hwait
      dsimp only
      split
      · refine .writeNext hq (Nat.mod_lt _ (by decide)) ht ?_ ?_ hl ((request_inFlight OwnKind.noConfusion).trans hnone) htags.1 htags.2
        · change (popWaiting (Machine.dropOwn tag s)).cmd.waiting.length ≤ 16
          rw [hpop]
          omega
        · change ((s.cmd.head + 1) % 256 + 256 - s.cmd.tail) % 256 + (popWaiting (Machine.dropOwn tag s)).cmd.waiting.length ≤ 255
          rw [hpop]
          omega
      · refine .writeNext hq hh ht ?_ ?_ hl hnone htags.1 htags.2
        · change (popWaiting (Machine.dropOwn tag s)).cmd.waiting.length ≤ 16
          rw [hpop]
          omega
        · change (s.cmd.head + 256 - s.cmd.tail) % 256 + (popWaiting (Machine.dropOwn tag s)).cmd.waiting.length ≤ 255
          rw [hpop]
          omega
  · exact hs

/-- A tail word moves T only onto slots in use (R164). -/
theorem RingInv.snoopTail (hs : RingInv s) (v : Nat) : RingInv (snoopTail v s) := by
  unfold Machine.snoopTail
  split
  · next h =>
    obtain ⟨hv, hbetween⟩ := Bool.and_eq_true_iff.1 h
    have hv := of_decide_eq_true hv
    have hbetween := of_decide_eq_true hbetween
    obtain ⟨hq, hh, ht, hw, hu, hrest⟩ := hs
    refine RingInv.offerLost ⟨hq, hh, hv, hw, ?_, hrest⟩
    change (s.cmd.head + 256 - v) % 256 + s.cmd.waiting.length ≤ 255
    omega
  · exact hs.same ⟨rfl, rfl, rfl, rfl, rfl, rfl, le_rfl⟩

/-! ### Releases -/

theorem RingInv.resumeCommand (hs : RingInv s) (k : Fin 16) : RingInv (resumeCommand k s) := by
  unfold Machine.resumeCommand
  split
  · split
    · exact hs.completeCommand _ _
    · exact hs
  · split
    · exact hs.setExecuting _
    · exact hs
  all_goals exact hs

theorem RingInv.finishDump (hs : RingInv s) (k : Fin 16) (d : Dumping) : RingInv (finishDump k d s) :=
  ((hs.offer _).keep (keeps_hold _ _) (by decide)).resumeCommand k

theorem RingInv.requestDump (hs : RingInv s) (k : Fin 16) (refs : List (HoldRef × Disposition)) : RingInv (requestDump k refs s) := by
  unfold Machine.requestDump
  split
  · exact hs
  · split
    · exact hs.request nofun
    · exact (hs.request (w := dumpWrite k _ _) nofun).request nofun

theorem RingInv.takeRelease (hs : RingInv s) (outcome : HandoffOutcome) (i : Fin 128) (st : Station) (k : Fin 16) (o : Occupied) :
    RingInv (takeRelease outcome i st k o s) := by
  unfold Machine.takeRelease
  dsimp only
  have hrequested (refs : List (HoldRef × Disposition)) (h : HoldUnit) (v : StationTable) :
      RingInv (Machine.requestDump k refs { s with hold := h, sta := v }) :=
    ((hs.keep (keeps_hold h s) (by decide)).keep (keeps_sta v _) (by decide)).requestDump k refs
  split
  · exact (hrequested _ _ _).finishDump _ _
  · exact hrequested _ _ _

theorem RingInv.visitStation (hs : RingInv s) (i : Fin 128) : RingInv (visitStation i s) := by
  unfold Machine.visitStation
  split
  · exact hs
  · split
    · split
      · exact (hs.keep (keeps_sta _ s) (by decide)).offer _
      · exact hs.keep (keeps_sta _ s) (by decide)
      · split
        · exact hs
        · exact hs.takeRelease _ _ _ _ _
      · exact hs
      · exact hs
    · exact hs

theorem foldl_invariant {α : Type} {inv : State → Prop} {f : State → α → State} (h : ∀ s a, inv s → inv (f s a)) (l : List α) {s : State}
    (hs : inv s) : inv (l.foldl f s) := by
  induction l generalizing s with
  | nil => exact hs
  | cons a l ih => exact ih (h s a hs)

theorem RingInv.visitFor (hs : RingInv s) (state : Roam) : RingInv (visitFor state s) := by
  unfold Machine.visitFor
  split
  · exact (foldl_invariant (fun _ i h => h.visitStation i) _ hs).keep (keeps_time _ _) (by decide)
  · exact hs

theorem RingInv.dumpResponse (hs : RingInv s) (tag : Nat) (resp : Resp) : RingInv (dumpResponse tag resp s) := by
  unfold Machine.dumpResponse
  split
  · next k hk =>
    split
    · have hcounted : RingInv (if resp = .okay then Machine.dropOwn tag s else
          { Machine.dropOwn tag s with hold := { s.hold with dumpFaults := satInc count32 s.hold.dumpFaults } }) := by
        split
        · exact hs.dropOwn hk nofun
        · exact (hs.dropOwn hk nofun).keep (keeps_hold _ _) (by decide)
      dsimp only
      split
      · exact hcounted.finishDump _ _
      · exact hcounted.keep (keeps_hold _ _) (by decide)
    · exact hs
    · exact hs
  · exact hs

/-! ### The commands that take several events -/

theorem RingInv.clearFlows (hs : RingInv s) (i : Fin 128) : RingInv (clearFlows i s) :=
  (hs.keep (keeps_cls _ s) (by decide)).setExecuting _

theorem RingInv.clearStep (hs : RingInv s) : RingInv (clearStep s) := by
  unfold Machine.clearStep
  split
  · split
    · exact hs
    · exact hs.clearFlows _
  · split
    · exact hs
    · exact ((hs.keep (keeps_cls _ s) (by decide)).keep (keeps_sta _ _) (by decide)).completeCommand _ _
  all_goals exact hs

theorem RingInv.stationClear (hs : RingInv s) (p : List Byte) : RingInv (stationClear p s) := by
  unfold Machine.stationClear
  split
  · exact hs.completeCommand _ _
  · split
    · exact hs.completeCommand _ _
    · split
      · exact (hs.setExecuting _).takeRelease _ _ _ _ _
      · exact hs.clearFlows _

theorem RingInv.handoffEnd (hs : RingInv s) (p : List Byte) : RingInv (handoffEnd p s) := by
  unfold Machine.handoffEnd
  split
  · split
    · exact hs.completeCommand _ _
    · split
      · exact hs.completeCommand _ _
      · exact (hs.setExecuting _).takeRelease _ _ _ _ _
  · exact hs.completeCommand _ _

theorem statsWrites_kind {n addr : Nat} {bs : List Byte} {w : OwnWrite} (h : w ∈ statsWrites n addr bs) : w.kind = .stats := by
  induction n generalizing addr bs with
  | zero => cases h
  | succ n ih =>
    obtain rfl | h := List.mem_cons.1 h
    · rfl
    · exact ih h

/-- Clearing the counts of a section leaves the rings but for the lost count. -/
theorem RingInv.clearSection (hs : RingInv s) (sec : Nat) : RingInv (clearSection sec s) := by
  unfold Machine.clearSection
  split
  · obtain ⟨hq, hh, ht, hw, hu, -, hrest⟩ := hs
    exact ⟨hq, hh, ht, hw, hu, Nat.zero_le _, hrest⟩
  · split
    · exact hs.same ⟨rfl, rfl, rfl, rfl, rfl, rfl, le_rfl⟩
    · split
      · exact hs
      · exact hs.keep (foldl_keeps (fun s i => modStation_keeps i clearCounts s) _ s) (by decide)

theorem RingInv.takeSection (hs : RingInv s) (sec : Nat) (clear : Bool) : RingInv (takeSection sec clear s) := by
  unfold Machine.takeSection
  dsimp only
  refine RingInv.setExecuting (RingInv.requests (fun w hw => by rw [statsWrites_kind hw]; nofun) ?_) _
  have hfree : RingInv { s with free := if sec = 0 then s.free + 4 else s.free } := hs.keep (keeps_free _ s) (by decide)
  split
  · exact hfree.clearSection sec
  · exact hfree

theorem RingInv.stats (hs : RingInv s) (p : List Byte) : RingInv (stats p s) := by
  unfold Machine.stats
  split
  · exact hs.completeCommand _ _
  · split
    · exact hs.takeSection _ _
    · exact hs.completeCommand _ _

theorem RingInv.statsResponse (hs : RingInv s) (tag : Nat) (resp : Resp) : RingInv (statsResponse tag resp s) := by
  unfold Machine.statsResponse
  split
  · next hk _ =>
    dsimp only
    split
    · exact ((hs.dropOwn hk nofun).offer _).completeCommand _ _
    · exact (hs.dropOwn hk nofun).setExecuting _
  · exact hs

/-! ### Receptions and the Image Unit -/

theorem RingInv.completeOrReceiving (hs : RingInv s) : RingInv (completeOrReceiving s) := by
  unfold Machine.completeOrReceiving
  split
  · exact (hs.keep (keeps_img _ s) (by decide)).offer _
  · exact hs.keep (keeps_img _ s) (by decide)

theorem RingInv.endSweep (hs : RingInv s) : RingInv (endSweep s) := hs.path (endSweep_keeps s) (by decide) le_rfl

theorem RingInv.interruptSweep (hs : RingInv s) (off : Nat) : RingInv (interruptSweep off s) :=
  ((hs.endSweep.keep (keeps_free _ _) (by decide)).offer _).completeOrReceiving

theorem RingInv.followMap (hs : RingInv s) (off : Nat) : RingInv (followMap off s) := by
  have hcomplete : RingInv (enterComplete s) := (hs.keep (keeps_img _ s) (by decide)).offer _
  have hreceiving : RingInv (enterReceiving s) := hs.keep (keeps_img _ s) (by decide)
  unfold Machine.followMap
  split
  · exact hs
  · split
    · exact hcomplete
    · exact hs
  · split
    · exact hs
    · exact hreceiving
  · split
    · exact hs
    · exact hreceiving
  · exact hs.completeOrReceiving
  · exact hs.interruptSweep off

theorem RingInv.trackWrite (hs : RingInv s) (t : TxnAddr) (d : List Lane) : RingInv (trackWrite t d s) := by
  unfold Machine.trackWrite
  split
  · exact hs
  · dsimp only
    split
    · exact (hs.keep (keeps_img _ s) (by decide)).followMap _
    · exact (hs.keep (keeps_img _ s) (by decide)).followMap _

theorem RingInv.passWrite (hs : RingInv s) (tag : Nat) (d : List Lane) : RingInv (passWrite tag d s) :=
  hs.path (passWrite_keeps tag d s) (by decide) le_rfl

theorem RingInv.hold (hs : RingInv s) (tag : Nat) (d : List Lane) : RingInv (hold tag (storeData tag d s)) :=
  hs.path (keeps_path _ s) (by decide) le_rfl

theorem RingInv.refuseWrite (hs : RingInv s) (tag : Nat) : RingInv (refuseWrite tag s) := hs.path (keeps_path _ s) (by decide) le_rfl

theorem RingInv.reportRefusal (hs : RingInv s) (region : RefusedRegion) (t : TxnAddr) : RingInv (reportRefusal region t s) :=
  RingInv.offer (hs.keep (keeps_img _ s) (by decide)) _

theorem RingInv.setIgnored (hs : RingInv s) (n : Nat) : RingInv { s with cmd := { s.cmd with ignored := n } } :=
  hs.same ⟨rfl, rfl, rfl, rfl, rfl, rfl, le_rfl⟩

theorem RingInv.receiveRecord (hs : RingInv s) (w : WriteTx) (d : List Lane) : RingInv (receiveRecord w d s) := by
  unfold Machine.receiveRecord
  split
  · exact (hs.hold w.tag d).keep (keeps_img _ _) (by decide)
  · exact (hs.refuseWrite w.tag).reportRefusal _ _

theorem RingInv.receiveCommand (hs : RingInv s) (w : WriteTx) (d : List Lane) : RingInv (receiveCommand w d s) := by
  unfold Machine.receiveCommand
  split
  · next h => exact (hs.capture _ h).passWrite _ _
  · exact (hs.hold w.tag d).same ⟨rfl, rfl, rfl, rfl, rfl, rfl, le_rfl⟩

theorem receiveDescriptor_next (w : WriteTx) (d : List Lane) (s : State) : (receiveDescriptor w d s).path.nextTag = s.path.nextTag := by
  unfold receiveDescriptor
  split
  · rfl
  · split
    · split
      · split <;> rfl
      · rfl
    · rfl
    · rfl

theorem receiveStatus_next (w : WriteTx) (d : List Lane) (s : State) : (receiveStatus w d s).path.nextTag = s.path.nextTag := by
  unfold receiveStatus
  split
  · rfl
  · split
    · split
      · split <;> rfl
      · rfl
    · rfl
    · rfl

theorem RingInv.receiveAs (hs : RingInv s) (kind : Reception) (w : WriteTx) (d : List Lane) : RingInv (receiveAs kind w d s) := by
  cases kind with
  | refusal => exact hs.path (keeps_path _ s) (by decide) le_rfl
  | record => exact hs.receiveRecord w d
  | staging => exact (hs.trackWrite w.txn d).passWrite _ _
  | descriptor => exact hs.path (receiveDescriptor_keeps w d s) (by decide) (receiveDescriptor_next w d s).ge
  | status => exact hs.path (receiveStatus_keeps w d s) (by decide) (receiveStatus_next w d s).ge
  | frameStart => exact (hs.keep (keeps_capture _ s) (by decide)).passWrite _ _
  | peer =>
    dsimp only [Machine.receiveAs, receivePeer]
    split
    · exact hs.passWrite _ _
    · exact (hs.keep (takePeer_keeps _ s) (by decide)).passWrite _ _
  | command => exact hs.receiveCommand w d
  | commandOther => exact ((hs.setIgnored _).offer _).passWrite _ _
  | tail => exact (hs.snoopTail _).passWrite _ _
  | plain =>
    dsimp only [Machine.receiveAs, receivePlain, countPeerPartial]
    split
    · exact (hs.keep (keeps_sig _ s) (by decide)).passWrite _ _
    · exact hs.passWrite _ _

theorem RingInv.receive (hs : RingInv s) (wanted : Reception → Bool) (tag : Nat) (d : List Lane) : RingInv (receive wanted tag d s) := by
  obtain h | ⟨w, -, h⟩ := receive_cases wanted tag d s <;> rw [h]
  · exact hs
  · exact hs.receiveAs _ w d

theorem countRefusedRecord_keeps (tag : Nat) (bs : List Byte) (s : State) :
    KeepsAllBut [.path, .img, .free] s (countRefusedRecord tag bs s) := by
  intro b hb; cases b <;> first | rfl | exact absurd (by decide) hb

theorem RingInv.acceptRecord (hs : RingInv s) (tag : Nat) (bs : List Byte) : RingInv (acceptRecord tag bs s) := by
  have hkeep (trial : Nat) : RingInv (keepRecord tag bs trial s) :=
    hs.path (keepRecord_keeps tag bs trial s.img.checks s) (by decide) le_rfl
  unfold Machine.acceptRecord
  dsimp only
  split
  · exact (hkeep 0).offer _
  · exact hkeep s.img.trial

theorem RingInv.refuseRecord (hs : RingInv s) (tag : Nat) (cause : RecordCause) (bs : List Byte) :
    RingInv (refuseRecord tag cause bs s) := by
  rw [refuseRecord_eq]
  exact (hs.path (countRefusedRecord_keeps tag bs s) (by decide) le_rfl).offerAll _

theorem RingInv.bootRecordCheck (hs : RingInv s) : RingInv (bootRecordCheck s) := by
  have hdrop (rest : List Nat) : RingInv (dropCheck rest s) := hs.keep (keeps_img _ s) (by decide)
  unfold Machine.bootRecordCheck
  split
  · exact hs
  · next tag rest _ =>
    dsimp only
    split
    · exact hdrop rest
    · split
      · exact (hdrop rest).refuseRecord ..
      · exact (hdrop rest).acceptRecord ..

theorem RingInv.setW (hs : RingInv s) (n : Nat) : RingInv { s with path := { s.path with sweepWait := n } } :=
  hs.same ⟨rfl, rfl, rfl, rfl, rfl, rfl, le_rfl⟩

theorem RingInv.finishSweep (hs : RingInv s) (result : VerifyResult) (state : StagingState) (crc : Word) (offset : Nat) :
    RingInv (finishSweep result state crc offset s) :=
  ((hs.setW 0).keep (keeps_img _ _) (by decide)).offer _

theorem RingInv.sweepReadReturn (hs : RingInv s) (tag : Nat) (resps : List Resp) (data : List Byte) :
    RingInv (sweepReadReturn tag resps data s) := by
  have hset (g : Staging) : RingInv (setStaging g s) := hs.keep (keeps_img _ s) (by decide)
  unfold Machine.sweepReadReturn
  split
  · exact hset _
  · split
    · exact hs
    · split
      · unfold sweepData
        dsimp only
        split
        · split
          · split
            · exact (hs.keep (keeps_img _ s) (by decide)).finishSweep _ _ _ _
            · exact hs.finishSweep _ _ _ _
          · exact hset _
        · exact hs.finishSweep _ _ _ _
      · exact hs

/-! ### The other events -/

theorem RingInv.releaseRewritten (hs : RingInv s) (tag : Nat) (bytes : List Byte) : RingInv (releaseRewritten tag bytes s) :=
  hs.path (releaseRewritten_keeps tag bytes s) (by decide) le_rfl

theorem RingInv.meetUnknown (hs : RingInv s) (mac : Mac) (slot : Fin 16) (raw : Byte) : RingInv (meetUnknown mac slot raw s) := by
  unfold Machine.meetUnknown
  split
  · exact hs
  · exact (hs.offer _).keep (keeps_sta _ _) (by decide)

theorem RingInv.decideStatus (hs : RingInv s) (r : StatusRecord) : RingInv (decideStatus r s).state := by
  have hunknown : RingInv (unknownStatus r s).state := by
    unfold unknownStatus
    dsimp only
    split
    · exact hs.keep (modCounts_keeps _ _ s) (by decide)
    · exact (hs.keep (modCounts_keeps _ _ s) (by decide)).meetUnknown _ _ _
  unfold Machine.decideStatus
  split
  · exact hunknown
  · split
    · exact hunknown
    · next i _ _ st _ =>
      cases h : st.closed with
      | true => exact hs.keep (takenStatus_closed_keeps r i s h) (by decide)
      | false => exact hs.keep (takenStatus_open_keeps r i s h) (by decide)

theorem RingInv.statusDecision (hs : RingInv s) : RingInv (statusDecision s) := by
  unfold Machine.statusDecision
  split
  · exact hs
  · split
    · exact hs
    · exact ((hs.keep (dropHeld_keeps s) (by decide)).decideStatus _).releaseRewritten _ _

theorem RingInv.descriptorDisposition (hs : RingInv s) : RingInv (descriptorDisposition s) := by
  unfold Machine.descriptorDisposition
  split
  · exact hs
  · split
    · exact hs
    · exact ((hs.keep (dropHeld_keeps s) (by decide)).keep (decide5_keeps _ _) (by decide)).releaseRewritten _ _

theorem RingInv.takeSample (hs : RingInv s) (i : Fin 128) (st : Station) (raw : Byte) : RingInv (takeSample i st raw s) :=
  ((hs.keep (keeps_sig _ s) (by decide)).keep (keeps_sta _ _) (by decide)).offerAll _

theorem RingInv.signalSample (hs : RingInv s) (i : Nat) : RingInv (signalSample i s) := by
  have hsig (x : SignalUnit) : RingInv { s with sig := x } := hs.keep (keeps_sig x s) (by decide)
  unfold Machine.signalSample
  split
  · exact hs
  · split
    · exact hs
    · dsimp only
      split
      · exact hsig _
      · split
        · exact hsig _
        · split
          · exact hsig _
          · exact (hsig _).takeSample _ _ _

theorem RingInv.writeGrant (hs : RingInv s) : RingInv (writeGrant s) := by
  unfold Machine.writeGrant
  split
  · next h => exact hs.grantOwn h
  · split
    · exact hs
    · exact hs.same ⟨rfl, rfl, rfl, rfl, rfl, rfl, le_rfl⟩

theorem RingInv.readGrant (hs : RingInv s) : RingInv (readGrant s) := by
  refine hs.path (readGrant_keeps s) (by decide) ?_
  have hsweep (w : Sweep) : s.path.nextTag ≤ (grantSweep w s).path.nextTag := Nat.le_succ _
  have hread (r : ReadTx) (counts : Bool) : s.path.nextTag ≤ (grantRead r counts s).path.nextTag := le_rfl
  unfold Machine.readGrant
  split
  · exact Nat.le_succ _
  · split
    · split
      · exact hsweep _
      · exact hread _ _
    · exact hsweep _
    · exact hread _ _
    · exact le_rfl

theorem RingInv.writeArrival (hs : RingInv s) (a : TxnAddr) : RingInv (writeArrival a s) := by
  have hentered (w : WriteTx) : RingInv (enterWrite w s) := hs.path (keeps_path _ s) (by decide) (Nat.le_succ _)
  unfold Machine.writeArrival
  split
  · split
    · exact (hentered _).reportRefusal _ _
    · exact hentered _
  · exact hs

theorem RingInv.readArrival (hs : RingInv s) (a : TxnAddr) : RingInv (readArrival a s) := by
  refine hs.path (readArrival_keeps a s) (by decide) ?_
  unfold Machine.readArrival
  split
  · exact Nat.le_succ _
  · exact le_rfl

theorem downResponse_next (tag : Nat) (resp : DownResp) (s : State) : (downResponse tag resp s).path.nextTag = s.path.nextTag := by
  cases resp with
  | write r =>
    dsimp only [downResponse, writeResponse]
    split
    · rfl
    · split <;> rfl
  | read resps data =>
    dsimp only [downResponse, readResponse]
    split <;> rfl

theorem refusedResponse_next (tag : Nat) (s : State) : (refusedResponse tag s).path.nextTag = s.path.nextTag := by
  unfold refusedResponse
  split
  · rfl
  · split <;> rfl

theorem RingInv.headResponse (hs : RingInv s) (tag : Nat) (resp : Resp) : RingInv (headResponse tag resp s) := by
  unfold Machine.headResponse
  split
  · next hk =>
    have hdropped := hs.dropOwn hk OwnKind.noConfusion
    dsimp only
    split
    · exact hdropped
    · exact hdropped.same ⟨rfl, rfl, rfl, rfl, rfl, rfl, le_rfl⟩
  · exact hs

theorem RingInv.bootReadComplete (hs : RingInv s) (resps : List Resp) (data : List Byte) : RingInv (bootReadComplete resps data s) := by
  have hstart (d : StartUp) :
      RingInv { s with boot := .opened, img := { s.img with bank := d.bank, trial := d.trial, record := d.record } } :=
    hs.same ⟨rfl, rfl, rfl, rfl, rfl, rfl, le_rfl⟩
  unfold Machine.bootReadComplete
  split
  · exact RingInv.offer ((hstart _).request OwnKind.noConfusion) _
  · exact hs

theorem RingInv.boundarySteps (hs : RingInv s) : RingInv (boundarySteps s) := by
  have hmap {u : State} (f : Station → Station) (hu : RingInv u) : RingInv (mapStations f u) := hu.keep (mapStations_keeps f u) (by decide)
  have hroll {u : State} (hu : RingInv u) : RingInv (if s.sched.clock.rollsOver then rollover u else u) := by
    split
    · exact (hmap _ hu).keep (keeps_sta _ _) (by decide)
    · exact hu
  have hcommit {u : State} (hu : RingInv u) : RingInv (applyCommit u) := by
    unfold applyCommit
    split
    · exact hu
    · exact (hmap _ (hu.keep (keeps_sched _ u) (by decide))).offer _
  have hcheck {u : State} (hu : RingInv u) : RingInv (checkActivation u) := by
    unfold checkActivation
    split
    · exact (hu.keep (keeps_img _ u) (by decide)).offer _
    · exact hu
  have hwarn {u : State} (hu : RingInv u) : RingInv (warnLow u) := (hmap _ hu).offerAll _
  exact (hcheck (hmap _ (hcommit (hroll (hwarn (hmap _ (hmap _ hs))))))).offerAll _

theorem RingInv.takeBoundary (hs : RingInv s) : RingInv (takeBoundary s) := (hs.keep (keeps_sched _ s) (by decide)).boundarySteps

theorem RingInv.minuteBoundary (hs : RingInv s) : RingInv (minuteBoundary s) := by
  unfold Machine.minuteBoundary
  split
  · split
    · unfold boundaryInReset
      dsimp only
      split
      · exact hs.same ⟨rfl, rfl, rfl, rfl, rfl, rfl, le_rfl⟩
      · exact hs.keep (keeps_sched _ s) (by decide)
    · exact hs.takeBoundary
  · exact hs

theorem RingInv.pauseEdge (hs : RingInv s) (v : Bool) : RingInv (pauseEdge v s) :=
  ((hs.keep (mapStations_keeps _ s) (by decide)).offer _).offerAll _

theorem RingInv.syncEdge (hs : RingInv s) : RingInv (syncEdge s) := by
  unfold Machine.syncEdge
  dsimp only
  split
  · exact ((hs.offer _).keep (keeps_sched _ _) (by decide)).takeBoundary
  · exact (hs.keep (keeps_sched _ s) (by decide)).offer _

theorem RingInv.lineEdge (hs : RingInv s) : RingInv (lineEdge s) := by
  have hlevel (x : Schedule) : RingInv { s with sched := x } := hs.keep (keeps_sched x s) (by decide)
  unfold Machine.lineEdge
  dsimp only
  split
  · split
    · exact hlevel _
    · split
      · exact (hlevel _).pauseEdge _
      · split
        · exact (hlevel _).pauseEdge _
        · exact (hlevel _).offer _
    · split
      · exact (hlevel _).syncEdge
      · exact hlevel _
  · exact hs

theorem RingInv.applyStaged (hs : RingInv s) : RingInv (applyStaged s) := by
  unfold Machine.applyStaged
  dsimp only
  split
  · exact (((hs.keep (keeps_adm _ s) (by decide)).offer _).keep (keeps_adm _ _) (by decide)).offerAll _
  · exact (hs.keep (keeps_adm _ s) (by decide)).offerAll _

theorem RingInv.demoteFlows (hs : RingInv s) : RingInv (demoteFlows s) := by
  have hwritten (c : Classifier) (a : Admission) : RingInv { s with cls := c, adm := a } := hs.same ⟨rfl, rfl, rfl, rfl, rfl, rfl, le_rfl⟩
  exact (hwritten _ _).offerAll _

theorem RingInv.pacingBoundary (hs : RingInv s) : RingInv (pacingBoundary s) := by
  unfold Machine.pacingBoundary
  split
  · exact ((hs.keep (keeps_adm _ s) (by decide)).applyStaged.demoteFlows.keep (clearPeriod_keeps _) (by decide)).keep (keeps_adm _ _)
      (by decide)
  · exact hs

theorem RingInv.unknownCommand (hs : RingInv s) : RingInv (unknownCommand s) := by
  unfold Machine.unknownCommand
  split
  · split
    · exact hs
    · exact hs.completeCommand _ _
  · exact hs

/-! ### Every event -/

theorem RingInv.atOnce (hs : RingInv s) {c : Instr} {a : AtOnce} (ha : atOnceOf c = some a) (p : List Byte) :
    RingInv (atOnce a.owner p s) := by
  obtain ⟨rs, hr⟩ := a.spec p s
  refine RingInv.completeCommand (hs.reports hr ?_) _ _
  rcases atOnceOf_path ha p s with h | h <;> rw [h]

theorem RingInv.exec {c : Instr} (hs : RingInv s) (h : exec c s = .next t) : RingInv t := by
  cases ha : atOnceOf c with
  | some a =>
    rw [exec_atOnce ha] at h
    cases h
    exact hs.runCommand fun p => hs.atOnce ha p
  | none =>
    cases c with
    | powerOnReset =>
      cases h
      unfold powerOnReset
      split
      · exact hs
      · exact ringInv_initial rfl rfl
    | warmReset =>
      cases h
      unfold warmReset
      split
      · exact hs
      · exact ringInv_initial rfl rfl
    | resetRelease pin sel => cases h; exact hs.keep (resetRelease_keeps pin sel s) (by decide)
    | abandonedResponse tag => cases h; exact hs.path (keeps_path _ s) (by decide) le_rfl
    | bootRecordReadIssue => cases h; exact hs.keep (bootReadIssue_keeps s) (by decide)
    | bootRecordReadComplete resps data => cases h; exact hs.bootReadComplete resps data
    | upstreamWriteArrival a => cases h; exact hs.writeArrival a
    | upstreamReadArrival a => cases h; exact hs.readArrival a
    | upstreamWriteReceived tag d => cases h; exact hs.receive _ tag d
    | frameStartWrite tag d => cases h; exact hs.receive _ tag d
    | peerRecord tag d => cases h; exact hs.receive _ tag d
    | commandCapture tag d => cases h; exact hs.receive _ tag d
    | tailWordWrite tag d => cases h; exact hs.receive _ tag d
    | stagingWriteTracked tag d => cases h; exact hs.receive _ tag d
    | bootRecordCheck => cases h; exact hs.bootRecordCheck
    | descriptorDisposition => cases h; exact hs.descriptorDisposition
    | statusRecordDecision => cases h; exact hs.statusDecision
    | signalSample i => cases h; exact hs.signalSample i
    | writeSideGrant => cases h; exact hs.writeGrant
    | readSideGrant => cases h; exact hs.readGrant
    | downstreamResponse tag resp => cases h; exact hs.path (downResponse_keeps tag resp s) (by decide) (downResponse_next tag resp s).ge
    | refusedWriteResponse tag => cases h; exact hs.path (refusedResponse_keeps tag s) (by decide) (refusedResponse_next tag s).ge
    | reportRecordResponse tag resp => cases h; exact hs.reportResponse tag resp
    | headWordResponse tag resp => cases h; exact hs.headResponse tag resp
    | dumpWriteResponse tag resp => cases h; exact hs.dumpResponse tag resp
    | statsWriteResponse tag resp => cases h; exact hs.statsResponse tag resp
    | sweepStart => cases h; exact hs.keep (sweepStart_keeps s) (by decide)
    | sweepReadReturn tag resps data => cases h; exact hs.sweepReadReturn tag resps data
    | uptimeSecond => cases h; exact hs.keep (uptimeSecond_keeps s) (by decide)
    | flowAging => cases h; exact hs.keep (flowAging_keeps s) (by decide)
    | candidateExpired => cases h; exact hs.visitFor _
    | holdoffExpiry => cases h; exact hs.visitFor _
    | handoffTimeout => cases h; exact hs.visitFor _
    | minuteBoundary => cases h; exact hs.minuteBoundary
    | lineEdge => cases h; exact hs.lineEdge
    | pacingPeriodBoundary => cases h; exact hs.pacingBoundary
    | unknownCommand => cases h; exact hs.unknownCommand
    | stationClear =>
      cases h
      split
      · exact hs.runCommand hs.stationClear
      · exact hs.clearStep
    | handoffEnd => cases h; exact hs.runCommand hs.handoffEnd
    | stats => cases h; exact hs.runCommand hs.stats
    | tick lineIn => cases h; exact hs.keep (tick_keeps lineIn s) (by decide)
    | _ => exact absurd ha nofun

end Rings

/-- Settles O58: `RingInv` is kept by every event (`RingInv.exec`), each by what it does to the Command Unit, to the own writes and to the
next handle. -/
theorem everyStepKeepsTheRings : Obligations.EveryStepKeepsTheRings :=
  step_keeps_of_exec (fun _ _ hs => hs.same ⟨rfl, rfl, rfl, rfl, rfl, rfl, le_rfl⟩) fun _ _ _ hs h => hs.exec h

end Sys2Proof.Machine

/-! SUPPORT. The Station Table (R28, Table 2.4): the changes of a record that leave its roaming state and its ranges alone, the tables that
keep their ranges, and the estimate and the state machine of a sample. -/

namespace Sys2Proof.Machine

open Sys2Proof

/-! ### Changes of records that leave the roaming state alone -/

/-- A change of a record that keeps its MAC, its roaming state with deadline and slot, and the ranges of its fields. -/
structure Quiet (f : Station → Station) : Prop where
  mac      : ∀ st, (f st).mac = st.mac
  state    : ∀ st, (f st).state = st.state
  deadline : ∀ st, (f st).deadline = st.deadline
  slot     : ∀ st, (f st).slot = st.slot
  ok       : ∀ st, StationOk st → StationOk (f st)

theorem Quiet.id : Quiet fun st => st := ⟨fun _ => rfl, fun _ => rfl, fun _ => rfl, fun _ => rfl, fun _ h => h⟩

theorem Quiet.comp {f g : Station → Station} (hf : Quiet f) (hg : Quiet g) : Quiet fun st => f (g st) :=
  ⟨fun _ => (hf.mac _).trans (hg.mac _), fun _ => (hf.state _).trans (hg.state _), fun _ => (hf.deadline _).trans (hg.deadline _),
    fun _ => (hf.slot _).trans (hg.slot _), fun _ h => hf.ok _ (hg.ok _ h)⟩

theorem Quiet.ite {f g : Station → Station} (c : Station → Prop) [DecidablePred c] (hf : Quiet f) (hg : Quiet g) :
    Quiet fun st => if c st then f st else g st := by
  refine ⟨fun st => ?_, fun st => ?_, fun st => ?_, fun st => ?_, fun st h => ?_⟩ <;> split
  exacts [hf.mac st, hg.mac st, hf.state st, hg.state st, hf.deadline st, hg.deadline st, hf.slot st, hg.slot st, hf.ok st h, hg.ok st h]

/-- Gate reasons, flags and counts without a range: fields that no invariant speaks of. -/
theorem Quiet.flags (f : Station → Station)
    (h : ∀ st, f st = { st with
      reasons := (f st).reasons, noUrgent := (f st).noUrgent, free := (f st).free, active := (f st).active, lowSent := (f st).lowSent,
      lastUrgent := (f st).lastUrgent, forwarded := (f st).forwarded, discarded := (f st).discarded, parked := (f st).parked,
      sched := (f st).sched, roam := (f st).roam }) : Quiet f :=
  ⟨fun st => by rw [h], fun st => by rw [h], fun st => by rw [h], fun st => by rw [h], fun st ok => by rw [h]; exact ok⟩

theorem StationOk.minutes {st : Station} (h : StationOk st) {used extra : Nat} (hu : used ≤ 1440) (he : extra ≤ 240) :
    StationOk { st with used := used, extra := extra } := by
  obtain ⟨hg, hz, -, -, hrest⟩ := h
  exact ⟨hg, hz, hu, he, hrest⟩

theorem quiet_evaluate (clock : Clock) (active : Vector SchedProfile 16) : Quiet (evaluate clock active) :=
  .flags _ fun st => by rw [evaluate_eq]

theorem quiet_withAllowance (v : Bool) : Quiet fun st => st.withAllowance v := .flags _ fun _ => rfl

theorem quiet_scheduleGate (sched : Schedule) : Quiet (scheduleGate sched) := .flags _ fun st => by rw [scheduleGate_eq]

theorem quiet_countMinute (clock : Clock) (active : Vector SchedProfile 16) : Quiet (countMinute clock active) := by
  refine ⟨fun _ => rfl, fun _ => rfl, fun _ => rfl, fun _ => rfl, fun st h => ?_⟩
  refine (h.minutes (used := (countMinute clock active st).used) ?_ h.2.2.2.1 : StationOk _)
  dsimp only [countMinute]
  split
  · exact Nat.min_le_right _ _
  · exact h.2.2.1

theorem quiet_setAllowance (clock : Clock) (active : Vector SchedProfile 16) : Quiet (setAllowance clock active) :=
  .ite _ (quiet_withAllowance true) .id

theorem quiet_setLowSent (v : Bool) : Quiet fun st => { st with lowSent := v } := .flags _ fun _ => rfl

theorem quiet_rollStation : Quiet rollStation :=
  ⟨fun _ => rfl, fun _ => rfl, fun _ => rfl, fun _ => rfl, fun _ h => h.minutes (Nat.zero_le _) (Nat.zero_le _)⟩

theorem quiet_retest (active : Vector SchedProfile 16) : Quiet (retest active) := by
  refine .flags _ fun st => ?_
  unfold retest
  dsimp only
  split <;> rfl

theorem quiet_retestMasked (mask : BitVec 16) (active : Vector SchedProfile 16) :
    Quiet fun st => if inMask mask st then retest active st else st := .ite (fun st => inMask mask st = true) (quiet_retest active) .id

theorem quiet_warnLow (clock : Clock) (active : Vector SchedProfile 16) :
    Quiet fun st => if lowDue clock active st then { st with lowSent := true } else st :=
  .ite (fun st => lowDue clock active st = true) (quiet_setLowSent true) .id

theorem quiet_applyMasks (set clear : Byte) : Quiet (applyMasks set clear) := .flags _ fun _ => rfl

theorem quiet_withLine (active : Vector SchedProfile 16) (v : Bool) : Quiet (withLine active v) :=
  .ite _ (.flags (fun st => { st with reasons := { st.reasons with line := v } }) fun _ => rfl) .id

theorem quiet_setActive (v : Bool) : Quiet fun st => { st with active := v } := .flags _ fun _ => rfl

theorem quiet_grantStation (a minutes : Nat) : Quiet (grantStation a minutes) := by
  refine ⟨fun st => ?_, fun st => ?_, fun st => ?_, fun st => ?_, fun st h => ?_⟩ <;> rw [grantStation_eq]
  exact h.minutes h.2.2.1 (Nat.min_le_right _ _)

theorem quiet_clearCounts : Quiet clearCounts := by
  refine ⟨fun _ => rfl, fun _ => rfl, fun _ => rfl, fun _ => rfl, fun st h => ?_⟩
  obtain ⟨hg, hz, hu, he, hest, hs, hd, -, hp⟩ := h
  exact ⟨hg, hz, hu, he, hest, hs, hd, Nat.zero_le _, hp⟩

theorem StationOk.setOverflow {st : Station} (h : StationOk st) {n : Nat} (hn : n ≤ 65535) : StationOk { st with overflow := n } := by
  obtain ⟨hg, hz, hu, he, hest, hs, hd, -, hp⟩ := h
  exact ⟨hg, hz, hu, he, hest, hs, hd, hn, hp⟩

theorem StationOk.setPeer {st : Station} (h : StationOk st) {o : Option Peer}
    (ho : ∀ p, o = some p → p.node ≤ 7 ∧ -1600 ≤ p.est ∧ p.est ≤ -320) : StationOk { st with peer := o } := by
  obtain ⟨hg, hz, hu, he, hest, hs, hd, hv, -⟩ := h
  exact ⟨hg, hz, hu, he, hest, hs, hd, hv, ho⟩

theorem quiet_countDiscard (overflow : Bool) : Quiet fun st =>
    { st with discarded := satInc count32 st.discarded, overflow := if overflow then satInc 65535 st.overflow else st.overflow } := by
  refine ⟨fun _ => rfl, fun _ => rfl, fun _ => rfl, fun _ => rfl, fun st h => ?_⟩
  refine (h.setOverflow (n := if overflow then satInc 65535 st.overflow else st.overflow) ?_ : StationOk _)
  split
  · exact Nat.min_le_right _ _
  · exact h.2.2.2.2.2.2.2.1

theorem quiet_dropPeer (n : Nat) : Quiet fun st => if st.peer.any fun q => q.node == n then { st with peer := none } else st :=
  .ite (fun st : Station => (st.peer.any fun q => q.node == n) = true)
    ⟨fun _ => rfl, fun _ => rfl, fun _ => rfl, fun _ => rfl, fun _ h => h.setPeer nofun⟩ .id

theorem clampInt_range (lo hi x : Int) (h : lo ≤ hi) : lo ≤ clampInt lo hi x ∧ clampInt lo hi x ≤ hi := by
  unfold clampInt
  omega

theorem quiet_setPeer (c : Station → Prop) [DecidablePred c] {r : PeerRecord} (hr : r.node ≤ 7) (now : Nat) :
    Quiet fun st => if c st then { st with peer := some (peerOf r now) } else st := by
  refine .ite c ⟨fun _ => rfl, fun _ => rfl, fun _ => rfl, fun _ => rfl, fun _ h => h.setPeer fun p hp => ?_⟩ .id
  cases hp
  exact ⟨hr, clampInt_range _ _ _ (by decide)⟩

/-! ### Tables whose records agree -/

/-- The record of every index of a table is that of another but for a quiet change. -/
def QuietTable (v w : Vector (Option Station) 128) : Prop :=
  ∀ i : Fin 128, v[i] = none ∧ w[i] = none ∨ ∃ a b, v[i] = some a ∧ w[i] = some b ∧ b.mac = a.mac ∧ b.state = a.state ∧
    b.deadline = a.deadline ∧ b.slot = a.slot ∧ (StationOk a → StationOk b)

theorem QuietTable.refl (v : Vector (Option Station) 128) : QuietTable v v := by
  intro i
  cases h : v[i] with
  | none => exact .inl ⟨rfl, rfl⟩
  | some a => exact .inr ⟨a, a, rfl, rfl, rfl, rfl, rfl, rfl, id⟩

theorem QuietTable.trans {u v w : Vector (Option Station) 128} (h : QuietTable u v) (h' : QuietTable v w) : QuietTable u w := by
  intro i
  obtain ⟨hu, hv⟩ | ⟨a, b, hu, hv, hm, hs, hd, hk, ho⟩ := h i <;> obtain ⟨hv', hw⟩ | ⟨b', c, hv', hw, hm', hs', hd', hk', ho'⟩ := h' i
  · exact .inl ⟨hu, hw⟩
  · rw [hv] at hv'; cases hv'
  · rw [hv] at hv'; cases hv'
  · rw [hv] at hv'
    cases hv'
    exact .inr ⟨a, c, hu, hw, hm'.trans hm, hs'.trans hs, hd'.trans hd, hk'.trans hk, fun h => ho' (ho h)⟩

theorem QuietTable.mapped {v w : Vector (Option Station) 128} {f : Fin 128 → Station → Station} (hf : ∀ i, Quiet (f i))
    (h : ∀ i : Fin 128, w[i] = (v[i]).map (f i)) : QuietTable v w := by
  intro i
  rw [h i]
  cases hv : v[i] with
  | none => exact .inl ⟨rfl, rfl⟩
  | some a => exact .inr ⟨a, f i a, rfl, rfl, (hf i).mac a, (hf i).state a, (hf i).deadline a, (hf i).slot a, (hf i).ok a⟩

theorem quietTable_mapStations {f : Station → Station} (hf : Quiet f) (s : State) :
    QuietTable s.sta.stations (mapStations f s).sta.stations := .mapped (fun _ => hf) fun i => mapStations_at f s i

theorem quietTable_modStation {f : Station → Station} (hf : Quiet f) (i : Fin 128) (s : State) :
    QuietTable s.sta.stations (modStation i f s).sta.stations := by
  refine .mapped (f := fun j => if j = i then f else fun st => st) (fun j => ?_) fun j => ?_
  · split
    · exact hf
    · exact .id
  · rw [modStation_at]
    split
    · next h => rw [h]
    · exact Option.map_id'.symm

/-! ### Events that change no roaming state -/

/-- The stations of two states agree but for quiet changes, and no entry joins the carry list. -/
structure QuietStations (s t : State) : Prop where
  table : QuietTable s.sta.stations t.sta.stations
  carry : ∀ e ∈ t.sta.carry, e ∈ s.sta.carry

section QuietEvents

variable {s t u : State}

theorem QuietStations.refl (s : State) : QuietStations s s := ⟨.refl _, fun _ h => h⟩

theorem QuietStations.trans (h : QuietStations s t) (h' : QuietStations t u) : QuietStations s u :=
  ⟨h.table.trans h'.table, fun e he => h.carry e (h'.carry e he)⟩

theorem QuietStations.same (h : t.sta = s.sta) : QuietStations s t := ⟨h ▸ .refl _, fun _ he => h ▸ he⟩

theorem QuietStations.keep {bs : List Block} (h : KeepsAllBut bs s t) (hb : Block.sta ∉ bs) : QuietStations s t := .same (h .sta hb)

theorem quiet_mapStations {f : Station → Station} (hf : Quiet f) (s : State) : QuietStations s (mapStations f s) :=
  ⟨quietTable_mapStations hf s, fun _ h => h⟩

theorem quiet_modStation {f : Station → Station} (hf : Quiet f) (i : Fin 128) (s : State) : QuietStations s (modStation i f s) :=
  ⟨quietTable_modStation hf i s, fun _ h => h⟩

theorem quiet_modResolved {f : Station → Station} (hf : Quiet f) (station : Option (Fin 128)) (s : State) :
    QuietStations s (modResolved station f s) := by
  cases station with
  | none => exact .refl s
  | some i => exact quiet_modStation hf i s

theorem quiet_offerAll (rs : List Report) (s : State) : QuietStations s (offerAll rs s) := .keep (offerAll_keeps rs s) (by decide)

theorem quiet_takePeer (r : PeerRecord) (s : State) : QuietStations s (takePeer r s) := by
  unfold takePeer
  split
  · exact .same rfl
  · dsimp only
    split
    · exact .same rfl
    · next hr =>
      refine .trans (t := { s with sig := { s.sig with peerTaken := satInc count32 s.sig.peerTaken } }) (.same rfl) ?_
      exact quiet_modStation (quiet_setPeer _ (by omega) s.now) _ _

theorem quiet_receive (wanted : Reception → Bool) (tag : Nat) (d : List Lane) (s : State) : QuietStations s (receive wanted tag d s) := by
  obtain h | ⟨w, -, h⟩ := receive_cases wanted tag d s <;> rw [h]
  · exact .refl s
  · cases hk : receptionOf s.img w d with
    | peer =>
      dsimp only [receiveAs, receivePeer]
      split
      · exact .keep (passWrite_keeps _ _ _) (by decide)
      · exact (quiet_takePeer _ s).trans (.keep (passWrite_keeps _ _ _) (by decide))
    | _ => exact .keep (receiveAs_keeps _ w d s) (by decide)

theorem quiet_forwardDescriptor (d : Descriptor) (role : Role) (station : Option (Fin 128)) (uncaptured unresolved : Bool) (s : State) :
    QuietStations s (forwardDescriptor d role station uncaptured unresolved s).state :=
  .trans (.keep (modCounts_keeps _ _ s) (by decide)) (quiet_modResolved (.flags _ fun _ => rfl) _ _)

theorem quiet_discardDescriptor (d : Descriptor) (station : Option (Fin 128)) (overflow : Bool) (s : State) :
    QuietStations s (discardDescriptor d station overflow s).state :=
  .trans (.keep (modCounts_keeps _ _ s) (by decide)) (quiet_modResolved (quiet_countDiscard overflow) _ _)

theorem quiet_parkDescriptor (d : Descriptor) (i : Fin 128) (s : State) : QuietStations s (parkDescriptor d i s).state :=
  .trans (.keep (modCounts_keeps _ _ s) (by decide)) (quiet_modStation (.flags _ fun _ => rfl) _ _)

theorem quiet_stampUrgent (station : Option (Fin 128)) (s : State) : QuietStations s (stampUrgent station s) := by
  cases station with
  | none => exact .refl s
  | some i => exact quiet_modStation (.flags _ fun _ => rfl) i s

theorem quiet_admission (slot : Fin 16) (len : Nat) (answer : ClassAnswer) (station : Option (Fin 128)) (noUrgent : Bool) (s : State) :
    QuietStations s (admission slot len answer station noUrgent s).2 := by
  unfold admission
  split
  · exact .refl s
  · exact .refl s
  · exact .refl s
  · split
    · exact .refl s
    · split
      · exact .refl s
      · unfold admitUrgent
        split
        · exact .same rfl
        · split
          · split
            · exact .trans (t := modAdmSlot slot _ (modFlow _ _ s)) (.same rfl) ((quiet_stampUrgent station _).trans (.same rfl))
            · exact .same rfl
          · exact .same rfl

theorem quiet_classifyStep (d : Descriptor) (cap : Option Capture) (station : Option (Fin 128)) (noUrgent unresolved : Bool) (s : State) :
    QuietStations s (classifyStep d cap station noUrgent unresolved s).state :=
  .trans (t := { s with cls := (classify cap d.len s.now station s.cls).2 }) (.same rfl)
    ((quiet_admission _ _ _ _ _ _).trans (quiet_forwardDescriptor _ _ _ _ _ _))

theorem quiet_handoffStep (d : Descriptor) (cap : Capture) (i : Fin 128) (st : Station) (s : State) :
    QuietStations s (handoffStep d cap i st s).state := by
  unfold handoffStep
  split
  · dsimp only
    split
    · exact .trans (.keep (parkRequest_keeps _ _ _ _ s) (by decide)) (quiet_parkDescriptor _ _ _)
    · exact .trans (.keep (parkRequest_keeps _ _ _ _ s) (by decide)) (quiet_discardDescriptor _ _ _ _)
  · exact quiet_classifyStep _ _ _ _ _ s

theorem quiet_decide5 (d : Descriptor) (s : State) : QuietStations s (decide5 d s).state := by
  unfold decide5
  split
  · exact quiet_classifyStep _ _ _ _ _ s
  · next c _ =>
    refine .trans (t := { s with capture := c }) (.same rfl) ?_
    unfold stationStep
    split
    · exact quiet_classifyStep _ _ _ _ _ _
    · split
      · exact quiet_classifyStep _ _ _ _ _ _
      · unfold gateStep
        split
        · exact quiet_discardDescriptor _ _ _ _
        · exact quiet_handoffStep _ _ _ _ _

theorem quiet_descriptorDisposition (s : State) : QuietStations s (descriptorDisposition s) := by
  unfold descriptorDisposition
  split
  · exact .refl s
  · split
    · exact .refl s
    · exact .trans (t := dropHeld s) (.same rfl) ((quiet_decide5 _ _).trans (.same rfl))

theorem quiet_meetUnknown (mac : Mac) (slot : Fin 16) (raw : Byte) (s : State) : QuietStations s (meetUnknown mac slot raw s) := by
  unfold meetUnknown
  split
  · exact .refl s
  · exact (quiet_offerAll [.unknownStation mac slot raw] s).trans ⟨.refl _, fun _ h => h⟩

theorem quiet_statusDecision (s : State) : QuietStations s (statusDecision s) := by
  have hunknown (r : StatusRecord) (u : State) : QuietStations u (unknownStatus r u).state := by
    unfold unknownStatus
    dsimp only
    split
    · exact .same rfl
    · exact .trans (.keep (modCounts_keeps _ _ u) (by decide)) (quiet_meetUnknown _ _ _ _)
  have hdecide (r : StatusRecord) (u : State) : QuietStations u (decideStatus r u).state := by
    unfold decideStatus
    split
    · exact hunknown r u
    · split
      · exact hunknown r u
      · next i _ _ st _ =>
        cases h : st.closed with
        | true => exact .keep (takenStatus_closed_keeps r i u h) (by decide)
        | false =>
          rw [takenStatus_open h]
          exact .trans (t := handSample _ u) (.same rfl) ((quiet_modStation (quiet_setActive true) i _).trans (.same rfl))
  unfold statusDecision
  split
  · exact .refl s
  · split
    · exact .refl s
    · exact .trans (t := dropHeld s) (.same rfl) ((hdecide _ _).trans (.same rfl))

theorem quiet_rollover (s : State) : QuietStations s (rollover s) :=
  (quiet_mapStations quiet_rollStation s).trans ⟨.refl _, nofun⟩

theorem quiet_evaluateAll (s : State) : QuietStations s (evaluateAll s) := quiet_mapStations (quiet_evaluate _ _) s

theorem quiet_boundarySteps (s : State) : QuietStations s (boundarySteps s) := by
  have hroll (u : State) : QuietStations u (if s.sched.clock.rollsOver then rollover u else u) := by
    split
    · exact quiet_rollover u
    · exact .refl u
  have hcommit (u : State) : QuietStations u (applyCommit u) := by
    unfold applyCommit
    split
    · exact .refl u
    · have hset (x : Schedule) : QuietStations u { u with sched := x } := .same rfl
      exact ((hset _).trans (quiet_mapStations (quiet_retestMasked _ _) _)).trans (quiet_offerAll [_] _)
  have hcheck (u : State) : QuietStations u (checkActivation u) := by
    unfold checkActivation
    split
    · exact .trans (.keep (keeps_img _ u) (by decide)) (quiet_offerAll [_] _)
    · exact .refl u
  have hwarn (u : State) : QuietStations u (warnLow u) :=
    (quiet_mapStations (quiet_warnLow _ _) u).trans (quiet_offerAll _ _)
  exact ((((((((quiet_mapStations (quiet_countMinute _ _) s).trans (quiet_mapStations (quiet_setAllowance _ _) _)).trans (hwarn _)).trans
    (hroll _)).trans (hcommit _)).trans (quiet_evaluateAll _)).trans (hcheck _)).trans (quiet_offerAll _ _))

theorem quiet_takeBoundary (s : State) : QuietStations s (takeBoundary s) :=
  .trans (.keep (keeps_sched _ s) (by decide)) (quiet_boundarySteps _)

theorem quiet_minuteBoundary (s : State) : QuietStations s (minuteBoundary s) := by
  unfold minuteBoundary
  split
  · split
    · unfold boundaryInReset
      dsimp only
      split
      · exact ⟨.refl _, nofun⟩
      · exact .same rfl
    · exact quiet_takeBoundary s
  · exact .refl s

theorem quiet_lineEdge (s : State) : QuietStations s (lineEdge s) := by
  have hpause (v : Bool) (u : State) : QuietStations u (pauseEdge v u) :=
    (quiet_mapStations (quiet_withLine _ v) u).trans ((quiet_offerAll [_] _).trans (quiet_offerAll _ _))
  have hsync (u : State) : QuietStations u (syncEdge u) := by
    unfold syncEdge
    dsimp only
    split
    · exact (quiet_offerAll [_] u).trans (.trans (.keep (keeps_sched _ _) (by decide)) (quiet_takeBoundary _))
    · exact .trans (.keep (keeps_sched _ u) (by decide)) (quiet_offerAll [_] _)
  have hlevel (x : Schedule) : QuietStations s { s with sched := x } := .same rfl
  unfold lineEdge
  dsimp only
  split
  · split
    · exact hlevel _
    · split
      · exact (hlevel _).trans (hpause _ _)
      · split
        · exact (hlevel _).trans (hpause _ _)
        · exact (hlevel _).trans (quiet_offerAll [_] _)
    · split
      · exact (hlevel _).trans (hsync _)
      · exact hlevel _
  · exact .refl s

theorem quiet_clearSection (sec : Nat) (s : State) : QuietStations s (clearSection sec s) := by
  have hmod (l : List (Fin 128)) (u : State) : QuietStations u (l.foldl (fun s i => modStation i clearCounts s) u) := by
    induction l generalizing u with
    | nil => exact .refl u
    | cons i l ih => exact (quiet_modStation quiet_clearCounts i u).trans (ih _)
  unfold clearSection
  split
  · exact .same rfl
  · split
    · exact .same rfl
    · split
      · exact .refl s
      · exact hmod _ s

theorem quiet_completeCommand (status : Status) (result : List Byte) (s : State) : QuietStations s (completeCommand status result s) :=
  .keep (completeCommand_keeps status result s) (by decide)

theorem quiet_stats (p : List Byte) (s : State) : QuietStations s (stats p s) := by
  unfold stats
  split
  · exact quiet_completeCommand _ _ s
  · split
    · unfold takeSection
      dsimp only
      have hrequests (ws : List OwnWrite) (u : State) : KeepsAllBut [.own] u (ws.foldl (fun s w => request w s) u) :=
        foldl_keeps (fun u w => keeps_own _ u) ws u
      have hclear (clear : Bool) (u : State) : QuietStations u (if clear then clearSection (param1 p 0) u else u) := by
        split
        · exact quiet_clearSection _ u
        · exact .refl u
      have hfree (n : Nat) : QuietStations s { s with free := n } := .same rfl
      exact (((hfree _).trans (hclear _ _)).trans (.keep (hrequests _ _) (by decide))).trans (.keep (setExecuting_keeps _ _) (by decide))
    · exact quiet_completeCommand _ _ s

/-! ### Commands that change no roaming state -/

theorem quiet_timeSet (p : List Byte) (s : State) : QuietStations s (timeSet p s).state := by
  unfold timeSet
  dsimp only
  split
  · rw [reportGates_eq]
    have hset (x : Schedule) : QuietStations s { s with sched := x } := .same rfl
    have hroll (c : Bool) (u : State) : QuietStations u (if c then rollover u else u) := by
      split
      · exact quiet_rollover u
      · exact .refl u
    exact ((((hset _).trans (quiet_mapStations (quiet_setActive false) _)).trans (hroll _ _)).trans (quiet_evaluateAll _)).trans
      (quiet_offerAll _ _)
  · exact .refl s

theorem quiet_scheduleEvaluate (p : List Byte) (s : State) : QuietStations s (scheduleEvaluate p s).state :=
  (quiet_evaluateAll s).trans (quiet_offerAll _ _)

theorem quiet_gateSet (p : List Byte) (s : State) : QuietStations s (gateSet p s).state := by
  unfold gateSet
  dsimp only
  split
  · split
    · exact (quiet_mapStations (quiet_applyMasks _ _) s).trans (quiet_offerAll _ _)
    · split
      · exact .refl s
      · split
        · exact .refl s
        · exact (quiet_modStation (quiet_applyMasks _ _) _ s).trans (quiet_offerAll _ _)
  · exact .refl s

theorem quiet_grant (p : List Byte) (s : State) : QuietStations s (grant p s).state := by
  unfold grant
  dsimp only
  split
  · exact .refl s
  · split
    · split
      · exact .refl s
      · split
        · exact .refl s
        · exact (quiet_modStation (quiet_grantStation _ _) _ s).trans (quiet_offerAll _ _)
    · exact .refl s

theorem quiet_nodeSet (p : List Byte) (s : State) : QuietStations s (nodeSet p s).state := by
  unfold nodeSet
  dsimp only
  split
  · exact .trans (.keep (keeps_sig _ s) (by decide)) (quiet_mapStations (quiet_dropPeer _) _)
  · exact .refl s

theorem quiet_updateStation (i : Fin 128) (prof : Option (Fin 16)) (roam : Fin 4) (s : State) :
    QuietStations s (updateStation i prof roam s).state :=
  (quiet_modStation (.comp (quiet_scheduleGate s.sched) (.flags (fun st => { st with sched := prof, roam := roam }) fun _ => rfl)) i s).trans
    (quiet_offerAll _ _)

end QuietEvents

/-! ### The Station Table (R28, Table 2.4) -/

/-- No MAC in two records, every field in its range, and the carry list in the ranges that a station takes from it. -/
def TableOk (t : StationTable) : Prop :=
  (∀ i j : Fin 128, ∀ a b : Station, t.stations[i] = some a → t.stations[j] = some b → a.mac = b.mac → i = j) ∧
    (∀ i : Fin 128, ∀ a : Station, t.stations[i] = some a → StationOk a) ∧ ∀ e ∈ t.carry, e.used ≤ 1440 ∧ e.extra ≤ 240

/-- A visit is due only while some station's deadline is passed. -/
def VisitOk (s : State) : Prop :=
  s.time.visitDue = true → ∃ (i : Fin 128) (a : Station), s.sta.stations[i] = some a ∧ a.overdue s.time.secs = true

theorem stationInv_iff (s : State) : StationInv s ↔ TableOk s.sta ∧ VisitOk s := by simp only [StationInv, TableOk, VisitOk, and_assoc]

section Table

variable {s t : State}

theorem TableOk.quiet (hs : TableOk s.sta) (h : QuietStations s t) : TableOk t.sta := by
  obtain ⟨hmac, hok, hcarry⟩ := hs
  refine ⟨fun i j a b ha hb hm => ?_, fun i a ha => ?_, fun e he => hcarry e (h.carry e he)⟩
  · obtain ⟨-, hn⟩ | ⟨a', a'', ha', ha'', hma, -⟩ := h.table i
    · rw [hn] at ha; cases ha
    obtain ⟨-, hn⟩ | ⟨b', b'', hb', hb'', hmb, -⟩ := h.table j
    · rw [hn] at hb; cases hb
    rw [ha''] at ha
    rw [hb''] at hb
    cases ha
    cases hb
    exact hmac i j a' b' ha' hb' (hma.symm.trans (hm.trans hmb))
  · obtain ⟨-, hn⟩ | ⟨a', a'', ha', ha'', -, -, -, -, ho⟩ := h.table i
    · rw [hn] at ha; cases ha
    rw [ha''] at ha
    cases ha
    exact ho (hok i a' ha')

theorem overdue_congr {a b : Station} (hs : b.state = a.state) (hd : b.deadline = a.deadline) (now : Nat) : b.overdue now = a.overdue now := by
  simp only [Station.overdue, hs, hd]

theorem VisitOk.quiet (hs : VisitOk s) (h : QuietStations s t) (hv : t.time.visitDue = s.time.visitDue) (hn : t.time.secs = s.time.secs) :
    VisitOk t := by
  intro hdue
  obtain ⟨i, a, ha, ho⟩ := hs (hv ▸ hdue)
  obtain ⟨hn', -⟩ | ⟨a', b, ha', hb, -, hstate, hdead, -⟩ := h.table i
  · rw [hn'] at ha; cases ha
  rw [ha'] at ha
  cases ha
  exact ⟨i, b, hb, by rw [hn, overdue_congr hstate hdead, ho]⟩

theorem StationInv.quiet (hs : StationInv s) (h : QuietStations s t) (ht : t.time = s.time) : StationInv t := by
  rw [stationInv_iff] at hs ⊢
  exact ⟨hs.1.quiet h, hs.2.quiet h (by rw [ht]) (by rw [ht])⟩

theorem StationInv.keep {bs : List Block} (hs : StationInv s) (h : KeepsAllBut bs s t) (hb : Block.sta ∉ bs ∧ Block.time ∉ bs) :
    StationInv t := hs.quiet (.keep h hb.1) (h .time hb.2)

/-- While no visit is due the deadlines do not matter. -/
theorem TableOk.stationInv (h : TableOk t.sta) (hv : t.time.visitDue = false) : StationInv t :=
  (stationInv_iff t).2 ⟨h, fun hv' => absurd (hv.symm.trans hv') Bool.false_ne_true⟩

/-- A record written at an index whose MAC stands nowhere else. -/
theorem TableOk.put {i : Fin 128} {b : Station} (hs : TableOk s.sta) (hb : StationOk b)
    (hm : ∀ (j : Fin 128) (a : Station), j ≠ i → s.sta.stations[j] = some a → a.mac ≠ b.mac) : TableOk (putStation i (some b) s).sta := by
  obtain ⟨hmac, hok, hcarry⟩ := hs
  have hat (j : Fin 128) : (putStation i (some b) s).sta.stations[j] = if j = i then some b else s.sta.stations[j] := vput_at ..
  refine ⟨fun j k x y hx hy hxy => ?_, fun j x hx => ?_, hcarry⟩
  · rw [hat] at hx hy
    split at hx <;> split at hy
    · next hj hk => rw [hj, hk]
    · next hj hk => cases hx; exact absurd hxy.symm (hm k y hk hy)
    · next hj hk => cases hy; exact absurd hxy (hm j x hj hx)
    · exact hmac j k x y hx hy hxy
  · rw [hat] at hx
    split at hx
    · cases hx; exact hb
    · exact hok j x hx

/-- A record rewritten under its MAC. -/
theorem TableOk.rewrite {i : Fin 128} {a b : Station} (hs : TableOk s.sta) (ha : s.sta.stations[i] = some a) (hm : b.mac = a.mac)
    (hb : StationOk b) : TableOk (putStation i (some b) s).sta := by
  refine hs.put hb fun j x hj hx hxb => hj ?_
  exact hs.1 j i x a hx ha (hxb.trans hm)

theorem TableOk.mod {i : Fin 128} {f : Station → Station} (hs : TableOk s.sta) (hm : ∀ a, (f a).mac = a.mac)
    (hok : ∀ a, StationOk a → StationOk (f a)) : TableOk (modStation i f s).sta := by
  cases ha : s.sta.stations[i] with
  | none =>
    have hsame : modStation i f s = putStation i none s := by simp only [modStation, putStation, vmod, ha, Option.map_none]
    have hsta : putStation i none s = s := by
      have : vput s.sta.stations i none = s.sta.stations := by rw [← ha]; simp [vput]
      simp only [putStation, this]
    rw [hsame, hsta]
    exact hs
  | some a =>
    have hsame : modStation i f s = putStation i (some (f a)) s := by simp only [modStation, putStation, vmod, ha, Option.map_some]
    rw [hsame]
    exact hs.rewrite ha (hm a) (hok a (hs.2.1 i a ha))

theorem TableOk.empty {i : Fin 128} (hs : TableOk s.sta) : TableOk (putStation i none s).sta := by
  obtain ⟨hmac, hok, hcarry⟩ := hs
  have hat {j : Fin 128} {x : Station} (h : (putStation i none s).sta.stations[j] = some x) : s.sta.stations[j] = some x := by
    rw [putStation, vput_at] at h
    split at h
    · cases h
    · exact h
  exact ⟨fun j k x y hx hy => hmac j k x y (hat hx) (hat hy), fun j x hx => hok j x (hat hx), hcarry⟩

/-! ### Samples (R115, R116, R121 to R124) -/

/-- The step of the estimate goes toward the sample and not beyond it. -/
theorem estimateStep_between (d : Int) (k : Nat) :
    (0 ≤ d → 0 ≤ estimateStep d k ∧ estimateStep d k ≤ d) ∧ (d ≤ 0 → d ≤ estimateStep d k ∧ estimateStep d k ≤ 0) := by
  have hpos (x : Int) (hx : 0 ≤ x) : 0 ≤ x.tdiv (2 ^ k : Nat) ∧ x.tdiv (2 ^ k : Nat) ≤ x :=
    ⟨Int.tdiv_nonneg hx (Int.natCast_nonneg _), Int.tdiv_le_self _ hx⟩
  unfold estimateStep
  dsimp only
  refine ⟨fun hd => ?_, fun hd => ?_⟩
  · have := hpos d hd
    split
    · next h => split <;> omega
    · exact this
  · have h := hpos (-d) (by omega)
    rw [Int.neg_tdiv] at h
    split
    · next h' => split <;> omega
    · omega

theorem nextEstimate_range {est : Option Int} (hest : ∀ e, est = some e → -1600 ≤ e ∧ e ≤ -320) (raw : Byte) (k : Nat) :
    -1600 ≤ nextEstimate est (clampSample raw) k ∧ nextEstimate est (clampSample raw) k ≤ -320 := by
  have hx := clampInt_range (-100) (-20) raw.toInt (by decide)
  change -100 ≤ clampSample raw ∧ clampSample raw ≤ -20 at hx
  cases est with
  | none => dsimp only [nextEstimate]; omega
  | some e =>
    have he := hest e rfl
    have hstep := estimateStep_between (16 * clampSample raw - e) k
    dsimp only [nextEstimate]
    omega

/-- The state machine writes state, dwell and deadline, and neither enters HANDOFF nor leaves it. -/
theorem roamStep_moves (prof : RoamProfile) (now deadline : Nat) (i : Fin 128) (st : Station) (e : Int) :
    ∃ state dwell deadline', (roamStep prof now deadline i st e).1 = { st with state := state, dwell := dwell, deadline := deadline' } ∧
      (st.dwell ≤ 63 → dwell ≤ 63) ∧ (state = .handoff ↔ st.state = .handoff) := by
  have hstay : ∃ state dwell deadline', st = { st with state := state, dwell := dwell, deadline := deadline' } ∧
      (st.dwell ≤ 63 → dwell ≤ 63) ∧ (state = .handoff ↔ st.state = .handoff) := ⟨_, _, _, rfl, fun h => h, Iff.rfl⟩
  have hcount : ∃ state dwell deadline', countDwell st = { st with state := state, dwell := dwell, deadline := deadline' } ∧
      (st.dwell ≤ 63 → dwell ≤ 63) ∧ (state = .handoff ↔ st.state = .handoff) :=
    ⟨_, _, _, rfl, fun _ => Nat.min_le_right _ _, Iff.rfl⟩
  have hmove (state : Roam) (dwell' deadline' : Nat) (hst : st.state ≠ .handoff) (hs : state ≠ .handoff) (hd : st.dwell ≤ 63 → dwell' ≤ 63) :
      ∃ x y z, ({ st with state := state, dwell := dwell', deadline := deadline' } : Station) =
          { st with state := x, dwell := y, deadline := z } ∧ (st.dwell ≤ 63 → y ≤ 63) ∧ (x = .handoff ↔ st.state = .handoff) :=
    ⟨_, _, _, rfl, hd, iff_of_false hs hst⟩
  cases hst : st.state with
  | settled =>
    rw [roamStep_settled hst]
    split
    · exact hst ▸ hmove .watch 0 st.deadline (by rw [hst]; decide) (by decide) (fun _ => Nat.zero_le _)
    · exact hst ▸ hstay
  | watch =>
    rw [roamStep_watch hst]
    split
    · exact hst ▸ hmove .settled 0 st.deadline (by rw [hst]; decide) (by decide) (fun _ => Nat.zero_le _)
    · split
      · cases ht : candidateTest prof now deadline i (countDwell st) e with
        | none => exact hst ▸ hcount
        | some x =>
          unfold candidateTest at ht
          split at ht
          · cases ht
          · dsimp only at ht
            split at ht
            · cases ht
            · split at ht
              · cases ht
                exact hst ▸ hmove .candidate _ deadline (by rw [hst]; decide) (by decide) (fun _ => Nat.min_le_right _ _)
              · cases ht
      · exact hst ▸ hcount
  | candidate =>
    rw [roamStep_candidate hst]
    split
    · exact hst ▸ hmove .settled 0 0 (by rw [hst]; decide) (by decide) (fun _ => Nat.zero_le _)
    · exact hst ▸ hstay
  | handoff =>
    rw [roamStep_handoff_or_holdoff (.inl hst)]
    exact hst ▸ hstay
  | holdoff =>
    rw [roamStep_handoff_or_holdoff (.inr hst)]
    exact hst ▸ hstay

end Table

end Sys2Proof.Machine

/-! SUPPORT. Every event keeps the Station Table (R28, Table 2.4): `StationInv.exec`. -/

namespace Sys2Proof.Machine

open Sys2Proof

section Table

variable {s t : State}

/-! ### Installation (R30) and the commands that answer at once -/

theorem restoreCarry_ok {carry : List Carry} (hc : ∀ e ∈ carry, e.used ≤ 1440 ∧ e.extra ≤ 240) (day : Nat) {st : Station} (h : StationOk st) :
    StationOk (restoreCarry carry day st) := by
  unfold restoreCarry
  split
  · exact h
  · next e he =>
    obtain ⟨hu, hx⟩ := hc e (List.mem_of_find?_eq_some he)
    split
    · exact h.minutes hu hx
    · exact h

theorem newStation_ok {mac : Mac} (hg : isGroup mac = false) (hz : mac ≠ 0) (prof : Option (Fin 16)) (roam : Fin 4) :
    StationOk (newStation mac prof roam) :=
  ⟨hg, hz, Nat.zero_le _, Nat.zero_le _, nofun, Nat.zero_le _, Nat.zero_le _, Nat.zero_le _, nofun⟩

theorem installed_ok {sched : Schedule} {carry : List Carry} (hc : ∀ e ∈ carry, e.used ≤ 1440 ∧ e.extra ≤ 240) {mac : Mac}
    (hg : isGroup mac = false) (hz : mac ≠ 0) (prof : Option (Fin 16)) (roam : Fin 4) : StationOk (installed sched carry mac prof roam) := by
  have hgate := (quiet_scheduleGate sched).ok _ (restoreCarry_ok hc sched.clock.day (newStation_ok hg hz prof roam))
  exact (Quiet.flags (fun st => { st with reasons := { st.reasons with line := lineAtInstall sched st } }) fun _ => rfl).ok _ hgate

/-- STATION_SET refuses, updates a record quietly, or installs a MAC that stands nowhere in an empty record (R29). -/
theorem stationSet_cases (p : List Byte) (s : State) :
    QuietStations s (stationSet p s).state ∨
      ∃ i prof roam, s.sta.stations[i] = none ∧ isGroup (macAt p 1) = false ∧ macAt p 1 ≠ 0 ∧
        macElsewhere s.sta.stations i (macAt p 1) = false ∧ stationSet p s = installStation i (macAt p 1) prof roam s := by
  unfold stationSet
  dsimp only
  split
  · next i prof roam _ _ _ =>
    split
    · exact .inl (.refl s)
    · next hmac =>
      rw [Bool.or_eq_true, not_or, Bool.not_eq_true, beq_iff_eq] at hmac
      split
      · exact .inl (.refl s)
      · next helse =>
        split
        · next hn => exact .inr ⟨i, prof, roam, hn, hmac.1, hmac.2, Bool.not_eq_true _ ▸ helse, rfl⟩
        · split
          · exact .inl (quiet_updateStation i prof roam s)
          · exact .inl (.refl s)
  · exact .inl (.refl s)

theorem TableOk.install (hs : TableOk s.sta) {i : Fin 128} {mac : Mac} (hg : isGroup mac = false) (hz : mac ≠ 0)
    (he : macElsewhere s.sta.stations i mac = false) (prof : Option (Fin 16)) (roam : Fin 4) :
    TableOk (installStation i mac prof roam s).state.sta := by
  have hok := installed_ok (sched := s.sched) hs.2.2 hg hz prof roam
  have hmac : (installed s.sched s.sta.carry mac prof roam).mac = mac := by rw [installed_eq]; rfl
  have hput : TableOk (putStation i (some (installed s.sched s.sta.carry mac prof roam)) s).sta := by
    refine hs.put hok fun j a hj ha hm => ?_
    exact Bool.false_ne_true (he.symm.trans ((macElsewhere_iff _ i mac).2 ⟨j, a, hj, ha, hm.trans hmac⟩))
  rw [installStation_eq]
  change TableOk (offerAll _ _).sta
  rw [offerAll_sta]
  obtain ⟨hm, ho, hc⟩ := hput
  exact ⟨hm, ho, fun e h => hc e (List.mem_of_mem_filter h)⟩

theorem TableOk.stationSet (hs : TableOk s.sta) (p : List Byte) : TableOk (stationSet p s).state.sta := by
  obtain h | ⟨i, prof, roam, -, hg, hz, he, h⟩ := stationSet_cases p s
  · exact hs.quiet h
  · rw [h]
    exact hs.install hg hz he prof roam

theorem TableOk.handoffBegin (hs : TableOk s.sta) (p : List Byte) : TableOk (handoffBegin p s).state.sta := by
  unfold Machine.handoffBegin
  split
  · split
    · exact hs
    · split
      · exact hs
      · split
        · exact hs
        · split
          · exact hs
          · exact TableOk.mod (s := putSlot _ _ s) hs (fun _ => rfl) fun _ h => h
  · exact hs

theorem TableOk.handoffDecline (hs : TableOk s.sta) (p : List Byte) : TableOk (handoffDecline p s).state.sta := by
  unfold Machine.handoffDecline
  split
  · exact hs
  · split
    · exact hs
    · split
      · refine hs.mod (fun _ => rfl) fun a h => ?_
        obtain ⟨hg, hz, hu, he, hest, hn, -, hv, hp⟩ := h
        exact ⟨hg, hz, hu, he, hest, hn, Nat.zero_le _, hv, hp⟩
      · exact hs

/-- Of the commands that answer at once three write more of a record than a quiet change. -/
theorem quiet_atOnce {c : Instr} {a : AtOnce} (ha : atOnceOf c = some a) (hc : c ≠ .stationSet ∧ c ≠ .handoffBegin ∧ c ≠ .handoffDecline)
    (p : List Byte) (s : State) : QuietStations s (a.owner p s).state := by
  have hkeep {bs : List Block} {f : List Byte → State → Done} (h : Owner bs f) (hb : Block.sta ∉ bs) : QuietStations s (f p s).state := by
    obtain ⟨rs, hr⟩ := h p s
    exact .keep hr.keeps fun hm => (List.mem_append.1 hm).elim hb (by decide)
  obtain ⟨hset, hbegin, hdecline⟩ := hc
  cases c with
  | windowSet => cases ha; exact hkeep windowSet_owner (by decide)
  | windowClear => cases ha; exact hkeep windowClear_owner (by decide)
  | descProfileSet => cases ha; exact hkeep descProfileSet_owner (by decide)
  | statusProfileSet => cases ha; exact hkeep statusProfileSet_owner (by decide)
  | stationSet => exact absurd rfl hset
  | ruleSet => cases ha; exact hkeep ruleSet_owner (by decide)
  | ruleClear => cases ha; exact hkeep ruleClear_owner (by decide)
  | flowPin => cases ha; exact hkeep flowPin_owner (by decide)
  | flowUnpin => cases ha; exact hkeep flowUnpin_owner (by decide)
  | flowPromote => cases ha; exact hkeep flowPromote_owner (by decide)
  | flowFlush => cases ha; exact hkeep flowFlush_owner (by decide)
  | pacingSet => cases ha; exact hkeep pacingSet_owner (by decide)
  | capSet => cases ha; exact hkeep capSet_owner (by decide)
  | timeSet => cases ha; exact quiet_timeSet p s
  | scheduleStage => cases ha; exact hkeep scheduleStage_owner (by decide)
  | allowanceStage => cases ha; exact hkeep allowanceStage_owner (by decide)
  | scheduleCommit => cases ha; exact hkeep scheduleCommit_owner (by decide)
  | scheduleEvaluate => cases ha; exact quiet_scheduleEvaluate p s
  | gateSet => cases ha; exact quiet_gateSet p s
  | grant => cases ha; exact quiet_grant p s
  | lineSet => cases ha; exact hkeep lineSet_owner (by decide)
  | nodeSet => cases ha; exact quiet_nodeSet p s
  | roamProfileSet => cases ha; exact hkeep roamProfileSet_owner (by decide)
  | handoffBegin => exact absurd rfl hbegin
  | handoffDecline => exact absurd rfl hdecline
  | stageBegin => cases ha; exact hkeep stageBegin_owner (by decide)
  | stageCancel => cases ha; exact hkeep stageCancel_owner (by decide)
  | stageVerify => cases ha; exact hkeep stageVerify_owner (by decide)
  | activationSet => cases ha; exact hkeep activationSet_owner (by decide)
  | _ => exact absurd ha nofun

theorem TableOk.atOnce (hs : TableOk s.sta) {c : Instr} {a : AtOnce} (ha : atOnceOf c = some a) (p : List Byte) :
    TableOk (a.owner p s).state.sta := by
  cases c with
  | stationSet => cases ha; exact hs.stationSet p
  | handoffBegin => cases ha; exact hs.handoffBegin p
  | handoffDecline => cases ha; exact hs.handoffDecline p
  | _ => exact hs.quiet (quiet_atOnce ha ⟨nofun, nofun, nofun⟩ p s)

/-- A command is taken while no visit is due, and a visit is none of the commands' work. -/
theorem StationInv.runCommand (hs : StationInv s) (code : Nat) {owner : List Byte → State → State} (h : ∀ p, TableOk (owner p s).sta)
    (ht : ∀ p, (owner p s).time = s.time) : StationInv (runCommand code owner s) := by
  obtain he | ⟨-, hv, c, -, -, he | he⟩ := runCommand_cases code owner s
  · rw [he]; exact hs
  · rw [he]; exact hs.quiet (quiet_completeCommand _ _ s) (completeCommand_time _ _ s)
  · rw [he]; exact (h _).stationInv (by rw [ht]; exact hv)

theorem atOnce_time {c : Instr} {a : AtOnce} (ha : atOnceOf c = some a) (p : List Byte) (s : State) : (a.owner p s).state.time = s.time := by
  obtain ⟨rs, hr⟩ := a.spec p s
  refine hr.keeps .time ?_
  cases c <;> first | (cases ha; decide) | exact absurd ha nofun

/-! ### Samples, the release of a handoff, and the visit of an uptime second -/

theorem TableOk.setSig (hs : TableOk s.sta) (x : SignalUnit) : TableOk { s with sig := x }.sta := hs

theorem TableOk.takeSample (hs : TableOk s.sta) {i : Fin 128} {st : Station} (hi : s.sta.stations[i] = some st) (raw : Byte) :
    TableOk (takeSample i st raw s).sta := by
  unfold Machine.takeSample
  dsimp only
  rw [offerAll_sta]
  obtain ⟨state, dwell, deadline, h, hd, -⟩ := roamStep_moves s.sig.profiles[st.roam] s.now (s.after (s.sig.profiles[st.roam]).candidateTimeout) i
    { st with
      away := false, samples := satInc 65535 st.samples,
      est := some (nextEstimate st.est (clampSample raw) (s.sig.profiles[st.roam]).shift) }
    (nextEstimate st.est (clampSample raw) (s.sig.profiles[st.roam]).shift)
  obtain ⟨hg, hz, hu, he, hest, -, hdw, hv, hp⟩ := hs.2.1 i st hi
  rw [h]
  refine TableOk.rewrite (s := { s with sig := { s.sig with samplesTaken := satInc count32 s.sig.samplesTaken } }) hs hi rfl ?_
  refine ⟨hg, hz, hu, he, fun e he' => ?_, Nat.min_le_right _ _, hd hdw, hv, hp⟩
  cases he'
  exact nextEstimate_range hest raw _

theorem StationInv.signalSample (hs : StationInv s) (i : Nat) : StationInv (signalSample i s) := by
  unfold Machine.signalSample
  split
  · exact hs
  · next hv =>
    split
    · exact hs
    · dsimp only
      split
      · exact hs.keep (keeps_sig _ s) (by decide)
      · next st hst =>
        split
        · exact hs.keep (keeps_sig _ s) (by decide)
        · split
          · exact hs.keep (keeps_sig _ s) (by decide)
          · refine TableOk.stationInv (TableOk.takeSample ?_ ?_ _) ?_
            · exact ((stationInv_iff s).1 hs).1.setSig _
            · exact hst
            rw [takeSample_keeps _ _ _ _ .time (by decide)]
            exact Bool.not_eq_true _ ▸ hv

theorem StationOk.released {st : Station} (h : StationOk st) (outcome : HandoffOutcome) (deadline : Nat) :
    StationOk (releasedStation outcome deadline st) := by
  obtain ⟨hg, hz, hu, he, hest, hn, hd, hv, hp⟩ := h
  cases outcome with
  | departed => exact ⟨hg, hz, hu, he, nofun, hn, Nat.zero_le _, Nat.zero_le _, nofun⟩
  | stayed | timedOut => exact ⟨hg, hz, hu, he, hest, hn, hd, Nat.zero_le _, hp⟩
  | cleared => exact ⟨hg, hz, hu, he, hest, hn, Nat.zero_le _, Nat.zero_le _, hp⟩

theorem releasedStation_mac (outcome : HandoffOutcome) (deadline : Nat) (st : Station) : (releasedStation outcome deadline st).mac = st.mac := by
  cases outcome <;> rfl

theorem TableOk.takeRelease (hs : TableOk s.sta) (outcome : HandoffOutcome) (i : Fin 128) (st : Station) (k : Fin 16) (o : Occupied) :
    TableOk (takeRelease outcome i st k o s).sta := by
  rw [(takeRelease_tables outcome i st k o s).1]
  exact hs.mod (releasedStation_mac outcome _) fun _ h => h.released outcome _

theorem TableOk.visitStation (hs : TableOk s.sta) (i : Fin 128) : TableOk (visitStation i s).sta := by
  have hwritten (state : Roam) : TableOk (modStation i (fun st => { st with state := state, dwell := 0, deadline := 0 }) s).sta := by
    refine hs.mod (fun _ => rfl) fun a h => ?_
    obtain ⟨hg, hz, hu, he, hest, hn, -, hv, hp⟩ := h
    exact ⟨hg, hz, hu, he, hest, hn, Nat.zero_le _, hv, hp⟩
  unfold Machine.visitStation
  split
  · exact hs
  · split
    · split
      · rw [offer_sta]; exact hwritten .watch
      · exact hwritten .settled
      · split
        · exact hs
        · exact hs.takeRelease _ _ _ _ _
      · exact hs
      · exact hs
    · exact hs

theorem StationInv.visitFor (hs : StationInv s) (state : Roam) : StationInv (visitFor state s) := by
  unfold Machine.visitFor
  split
  · unfold visitStations
    dsimp only
    have hok := foldl_invariant (inv := fun u => TableOk u.sta) (fun _ i h => TableOk.visitStation h i) (List.finRange 128) ((stationInv_iff s).1 hs).1
    generalize (List.finRange 128).foldl (fun s i => Machine.visitStation i s) s = u at hok ⊢
    exact TableOk.stationInv hok rfl
  · exact hs

/-! ### The commands that take several events, and the clocks -/

theorem TableOk.setExecuting (hs : TableOk s.sta) (e : Executing) : TableOk (setExecuting e s).sta := hs

theorem TableOk.clearStep (hs : TableOk s.sta) : TableOk (clearStep s).sta := by
  unfold Machine.clearStep
  split
  · split
    · exact hs
    · exact hs
  · split
    · exact hs
    · rw [completeCommand_sta]
      exact TableOk.empty (s := { s with cls := _ }) hs
  all_goals exact hs

theorem StationInv.clearStep (hs : StationInv s) : StationInv (clearStep s) := by
  cases hv : s.time.visitDue with
  | false => exact (((stationInv_iff s).1 hs).1.clearStep).stationInv (by rw [clearStep_keeps s .time (by decide)]; exact hv)
  | true =>
    have hsame : Machine.clearStep s = s := by
      unfold Machine.clearStep
      split <;> first | rfl | exact if_pos hv
    rw [hsame]
    exact hs

theorem TableOk.stationClear (hs : TableOk s.sta) (p : List Byte) : TableOk (stationClear p s).sta := by
  unfold Machine.stationClear
  split
  · rw [completeCommand_sta]; exact hs
  · split
    · rw [completeCommand_sta]; exact hs
    · split
      · exact (hs.setExecuting _).takeRelease _ _ _ _ _
      · exact hs

theorem TableOk.handoffEnd (hs : TableOk s.sta) (p : List Byte) : TableOk (handoffEnd p s).sta := by
  unfold Machine.handoffEnd
  split
  · split
    · rw [completeCommand_sta]; exact hs
    · split
      · rw [completeCommand_sta]; exact hs
      · exact (hs.setExecuting _).takeRelease _ _ _ _ _
  · rw [completeCommand_sta]; exact hs

theorem StationInv.uptimeSecond (hs : StationInv s) : StationInv (uptimeSecond s) := by
  unfold Machine.uptimeSecond
  split
  · rw [stationInv_iff] at hs ⊢
    refine ⟨hs.1, fun hv => ?_⟩
    obtain ⟨i, hi⟩ := Option.isSome_iff_exists.1 hv
    obtain ⟨a, ha, ho⟩ := Option.any_eq_true _ _ |>.1 (vfind_some hi)
    exact ⟨i, a, ha, ho⟩
  · exact hs

theorem StationInv.flowAging (hs : StationInv s) : StationInv (flowAging s) := by
  rw [stationInv_iff] at hs ⊢
  unfold Machine.flowAging
  split
  · exact hs
  · exact hs

theorem tickUptime_visit (t : Uptime) : (tickUptime t).visitDue = t.visitDue ∧ (tickUptime t).secs = t.secs := by
  unfold tickUptime
  split <;> exact ⟨rfl, rfl⟩

theorem StationInv.tick (hs : StationInv s) (lineIn : Bool) : StationInv (tick lineIn s) := by
  rw [stationInv_iff] at hs ⊢
  unfold Machine.tick
  split
  · exact hs
  · split
    · exact hs
    · obtain ⟨hv, hn⟩ := tickUptime_visit s.time
      exact ⟨hs.1, hs.2.quiet (.same rfl) hv hn⟩

/-! ### Resets -/

theorem mem_carrySnapshot {v : Vector (Option Station) 128} {day : Nat} {e : Carry} :
    e ∈ carrySnapshot v day ↔
      ∃ (i : Fin 128) (st : Station), v[i] = some st ∧ 0 < st.used ∧ e = ⟨st.mac, st.used, st.extra, day⟩ := by
  simp only [carrySnapshot, List.mem_filterMap, stationList, List.mem_finRange, true_and, Option.bind_eq_some_iff]
  refine exists_congr fun i => exists_congr fun st => and_congr_right fun _ => ?_
  split
  · next h => simp only [h, Option.some.injEq, true_and, eq_comm]
  · next h => simp only [h, false_and, reduceCtorEq]

theorem TableOk.initial {carry : List Carry} (h : ∀ e ∈ carry, e.used ≤ 1440 ∧ e.extra ≤ 240) : TableOk (StationTable.initial carry) := by
  have hnone (i : Fin 128) : (StationTable.initial carry).stations[i] = none := by simp [StationTable.initial]
  refine ⟨fun i j a b ha => ?_, fun i a ha => ?_, h⟩ <;>
    (rw [hnone] at ha; cases ha)

theorem TableOk.carrySnapshot (hs : TableOk s.sta) (day : Nat) : ∀ e ∈ carrySnapshot s.sta.stations day, e.used ≤ 1440 ∧ e.extra ≤ 240 := by
  intro e he
  obtain ⟨i, st, hst, -, rfl⟩ := mem_carrySnapshot.1 he
  obtain ⟨-, -, hused, hextra, -⟩ := hs.2.1 i st hst
  exact ⟨hused, hextra⟩

/-! ### Every event -/

theorem StationInv.exec {c : Instr} (hs : StationInv s) (h : exec c s = .next t) : StationInv t := by
  have hok := ((stationInv_iff s).1 hs).1
  have hreceive (wanted : Reception → Bool) (tag : Nat) (d : List Lane) : StationInv (receive wanted tag d s) :=
    hs.quiet (quiet_receive wanted tag d s) (receive_keeps wanted tag d s .time (by decide))
  cases ha : atOnceOf c with
  | some a =>
    rw [exec_atOnce ha] at h
    cases h
    refine hs.runCommand a.code (fun p => ?_) fun p => ?_
    · rw [atOnce, completeCommand_sta]; exact hok.atOnce ha p
    · rw [atOnce, completeCommand_time]; exact atOnce_time ha p s
  | none =>
    cases c with
    | powerOnReset =>
      cases h
      unfold powerOnReset
      split
      · exact hs
      · exact TableOk.stationInv (.initial nofun) rfl
    | warmReset =>
      cases h
      unfold warmReset
      split
      · exact hs
      · exact TableOk.stationInv (.initial (hok.carrySnapshot _)) rfl
    | upstreamWriteReceived tag d => cases h; exact hreceive _ tag d
    | frameStartWrite tag d => cases h; exact hreceive _ tag d
    | peerRecord tag d => cases h; exact hreceive _ tag d
    | commandCapture tag d => cases h; exact hreceive _ tag d
    | tailWordWrite tag d => cases h; exact hreceive _ tag d
    | stagingWriteTracked tag d => cases h; exact hreceive _ tag d
    | descriptorDisposition =>
      cases h; exact hs.quiet (quiet_descriptorDisposition s) (descriptorDisposition_keeps s .time (by decide))
    | statusRecordDecision => cases h; exact hs.quiet (quiet_statusDecision s) (statusDecision_keeps s .time (by decide))
    | signalSample i => cases h; exact hs.signalSample i
    | uptimeSecond => cases h; exact hs.uptimeSecond
    | flowAging => cases h; exact hs.flowAging
    | candidateExpired => cases h; exact hs.visitFor _
    | holdoffExpiry => cases h; exact hs.visitFor _
    | handoffTimeout => cases h; exact hs.visitFor _
    | minuteBoundary => cases h; exact hs.quiet (quiet_minuteBoundary s) (minuteBoundary_keeps s .time (by decide))
    | lineEdge => cases h; exact hs.quiet (quiet_lineEdge s) (lineEdge_keeps s .time (by decide))
    | stationClear =>
      cases h
      split
      · exact hs.runCommand 0x06 hok.stationClear fun p => stationClear_keeps p s .time (by decide)
      · exact hs.clearStep
    | handoffEnd => cases h; exact hs.runCommand 0x1B hok.handoffEnd fun p => handoffEnd_keeps p s .time (by decide)
    | stats => cases h; exact hs.runCommand 0x20 (fun p => hok.quiet (quiet_stats p s)) fun p => stats_keeps p s .time (by decide)
    | tick lineIn => cases h; exact hs.tick lineIn
    | resetRelease pin sel => exact hs.keep (exec_keeps h) (of_decide_eq_true rfl)
    | abandonedResponse tag => exact hs.keep (exec_keeps h) (of_decide_eq_true rfl)
    | bootRecordReadIssue => exact hs.keep (exec_keeps h) (of_decide_eq_true rfl)
    | bootRecordReadComplete resps data => exact hs.keep (exec_keeps h) (of_decide_eq_true rfl)
    | upstreamWriteArrival a => exact hs.keep (exec_keeps h) (of_decide_eq_true rfl)
    | upstreamReadArrival a => exact hs.keep (exec_keeps h) (of_decide_eq_true rfl)
    | bootRecordCheck => exact hs.keep (exec_keeps h) (of_decide_eq_true rfl)
    | writeSideGrant => exact hs.keep (exec_keeps h) (of_decide_eq_true rfl)
    | readSideGrant => exact hs.keep (exec_keeps h) (of_decide_eq_true rfl)
    | downstreamResponse tag resp => exact hs.keep (exec_keeps h) (of_decide_eq_true rfl)
    | refusedWriteResponse tag => exact hs.keep (exec_keeps h) (of_decide_eq_true rfl)
    | reportRecordResponse tag resp => exact hs.keep (exec_keeps h) (of_decide_eq_true rfl)
    | headWordResponse tag resp => exact hs.keep (exec_keeps h) (of_decide_eq_true rfl)
    | dumpWriteResponse tag resp => exact hs.keep (exec_keeps h) (of_decide_eq_true rfl)
    | statsWriteResponse tag resp => exact hs.keep (exec_keeps h) (of_decide_eq_true rfl)
    | sweepStart => exact hs.keep (exec_keeps h) (of_decide_eq_true rfl)
    | sweepReadReturn tag resps data => exact hs.keep (exec_keeps h) (of_decide_eq_true rfl)
    | pacingPeriodBoundary => exact hs.keep (exec_keeps h) (of_decide_eq_true rfl)
    | unknownCommand => exact hs.keep (exec_keeps h) (of_decide_eq_true rfl)
    | _ => exact absurd ha nofun

end Table

end Sys2Proof.Machine

/-! SUPPORT. The events that leave the command in execution as it is (R160): `Continues`. -/

namespace Sys2Proof.Machine

open Sys2Proof

/-! ### The command in execution goes on -/

/-- The command in execution is the same, and so is the Command Queue, unless it `grows` by a capture. -/
def Continues (grows : Bool) (s t : State) : Prop :=
  t.cmd.executing = s.cmd.executing ∧ (t.cmd.queue = s.cmd.queue ∨ grows = true ∧ t.cmd.queue ≠ [])

section Continuing

variable {g : Bool} {s₀ s : State}

theorem Continues.refl (s : State) : Continues g s s := ⟨rfl, .inl rfl⟩

theorem Continues.nonempty {t : State} (h : Continues g s t) (hq : s.cmd.queue ≠ []) : t.cmd.queue ≠ [] :=
  h.2.elim (fun he => he ▸ hq) And.right

theorem Continues.stays {t : State} (h : Continues false s t) : t.cmd.queue = s.cmd.queue := h.2.resolve_right fun h => Bool.false_ne_true h.1

theorem Continues.same (hs : Continues g s₀ s) {t : State} (he : t.cmd.executing = s.cmd.executing) (hq : t.cmd.queue = s.cmd.queue) :
    Continues g s₀ t := ⟨he.trans hs.1, hq ▸ hs.2⟩

theorem Continues.keep (hs : Continues g s₀ s) {bs : List Block} {t : State} (h : KeepsAllBut bs s t) (hb : Block.cmd ∉ bs) :
    Continues g s₀ t := by
  have hc : t.cmd = s.cmd := h .cmd hb
  exact hs.same (by rw [hc]) (by rw [hc])

theorem appendReport_queue (r : Report) (s : State) : (appendReport r s).cmd.queue = s.cmd.queue := by
  unfold appendReport
  dsimp only
  split <;> rfl

theorem offerLost_queue (s : State) : (offerLost s).cmd.queue = s.cmd.queue := by
  unfold offerLost
  split
  · exact appendReport_queue _ s
  · rfl

theorem offer_queue (r : Report) (s : State) : (offer r s).cmd.queue = s.cmd.queue := by
  unfold offer
  dsimp only
  split
  · rw [appendReport_queue, offerLost_queue]
  · exact offerLost_queue s

theorem Continues.offerLost (hs : Continues g s₀ s) : Continues g s₀ (offerLost s) := hs.same (offerLost_executing s) (offerLost_queue s)

theorem Continues.offer (hs : Continues g s₀ s) (r : Report) : Continues g s₀ (offer r s) := hs.same (offer_executing r s) (offer_queue r s)

theorem Continues.offerAll {s : State} (hs : Continues g s₀ s) (rs : List Report) : Continues g s₀ (offerAll rs s) := by
  induction rs generalizing s with
  | nil => exact hs
  | cons r rs ih => exact ih (hs.offer r)

theorem Continues.capture (hs : Continues true s₀ s) (bytes : List Byte) : Continues true s₀ (capture bytes s) :=
  ⟨hs.1, .inr ⟨rfl, List.append_ne_nil_of_right_ne_nil _ (List.cons_ne_nil _ _)⟩⟩

theorem Continues.completeOrReceiving (hs : Continues g s₀ s) : Continues g s₀ (completeOrReceiving s) := by
  unfold Machine.completeOrReceiving
  split
  · exact (hs.keep (keeps_img _ s) (by decide)).offer _
  · exact hs.keep (keeps_img _ s) (by decide)

theorem Continues.followMap (hs : Continues g s₀ s) (off : Nat) : Continues g s₀ (followMap off s) := by
  have hcomplete : Continues g s₀ (enterComplete s) := (hs.keep (keeps_img _ s) (by decide)).offer _
  have hreceiving : Continues g s₀ (enterReceiving s) := hs.keep (keeps_img _ s) (by decide)
  unfold Machine.followMap
  split
  · exact hs
  · split
    · exact hcomplete
    · exact hs
  · split
    · exact hs
    · exact hreceiving
  · split
    · exact hs
    · exact hreceiving
  · exact hs.completeOrReceiving
  · exact (((hs.keep (endSweep_keeps s) (by decide)).keep (keeps_free _ _) (by decide)).offer _).completeOrReceiving

theorem Continues.trackWrite (hs : Continues g s₀ s) (t : TxnAddr) (d : List Lane) : Continues g s₀ (trackWrite t d s) := by
  unfold Machine.trackWrite
  split
  · exact hs
  · dsimp only
    split
    · exact (hs.keep (keeps_img _ s) (by decide)).followMap _
    · exact (hs.keep (keeps_img _ s) (by decide)).followMap _

theorem Continues.reportRefusal (hs : Continues g s₀ s) (region : RefusedRegion) (t : TxnAddr) : Continues g s₀ (reportRefusal region t s) :=
  Continues.offer (hs.keep (keeps_img _ s) (by decide)) _

theorem Continues.receiveAs (hs : Continues true s₀ s) (kind : Reception) (w : WriteTx) (d : List Lane) : Continues true s₀ (receiveAs kind w d s) := by
  have hpass {u : State} (h : Continues true s₀ u) : Continues true s₀ (passWrite w.tag d u) := h.keep (passWrite_keeps _ _ _) (by decide)
  have hhold : Continues true s₀ (Machine.hold w.tag (storeData w.tag d s)) := hs.keep (keeps_path _ s) (by decide)
  cases kind with
  | record =>
    dsimp only [Machine.receiveAs, receiveRecord]
    split
    · exact hhold.keep (keeps_img _ _) (by decide)
    · exact (hs.keep (keeps_path _ s) (by decide)).reportRefusal _ _
  | staging => exact hpass (hs.trackWrite w.txn d)
  | command =>
    dsimp only [Machine.receiveAs, receiveCommand]
    split
    · exact hpass (hs.capture _)
    · exact hhold.same rfl rfl
  | commandOther =>
    have hignored (n : Nat) : Continues true s₀ { s with cmd := { s.cmd with ignored := n } } := hs.same rfl rfl
    exact hpass ((hignored _).offer _)
  | tail =>
    refine hpass ?_
    unfold snoopTail
    split
    · exact Continues.offerLost (hs.same rfl rfl)
    · exact hs.same rfl rfl
  | refusal | descriptor | status | frameStart | peer | plain => exact hs.keep (receiveAs_keeps _ w d s) (by decide)

theorem Continues.receive (hs : Continues true s₀ s) (wanted : Reception → Bool) (tag : Nat) (d : List Lane) :
    Continues true s₀ (receive wanted tag d s) := by
  obtain h | ⟨w, -, h⟩ := receive_cases wanted tag d s <;> rw [h]
  · exact hs
  · exact hs.receiveAs _ w d

theorem Continues.bootRecordCheck (hs : Continues g s₀ s) : Continues g s₀ (bootRecordCheck s) := by
  have hdrop (rest : List Nat) : Continues g s₀ (dropCheck rest s) := hs.keep (keeps_img _ s) (by decide)
  unfold Machine.bootRecordCheck
  split
  · exact hs
  · next tag rest _ =>
    dsimp only
    split
    · exact hdrop rest
    · split
      · rw [refuseRecord_eq]
        exact ((hdrop rest).keep (countRefusedRecord_keeps _ _ _) (by decide)).offerAll _
      · have hkeep (bs : List Byte) (trial : Nat) : Continues g s₀ (keepRecord tag bs trial (dropCheck rest s)) :=
          (hdrop rest).keep (keepRecord_keeps tag bs trial _ _) (by decide)
        unfold acceptRecord
        dsimp only
        split
        · exact (hkeep _ 0).offer _
        · exact hkeep _ _

theorem Continues.finishSweep (hs : Continues g s₀ s) (result : VerifyResult) (state : StagingState) (crc : Word) (offset : Nat) :
    Continues g s₀ (finishSweep result state crc offset s) :=
  Continues.offer ((hs.keep (keeps_path _ s) (by decide)).keep (keeps_img _ _) (by decide)) _

theorem Continues.sweepReadReturn (hs : Continues g s₀ s) (tag : Nat) (resps : List Resp) (data : List Byte) :
    Continues g s₀ (sweepReadReturn tag resps data s) := by
  have hset (x : Staging) : Continues g s₀ (setStaging x s) := hs.keep (keeps_img _ s) (by decide)
  unfold Machine.sweepReadReturn
  split
  · exact hset _
  · split
    · exact hs
    · split
      · unfold sweepData
        dsimp only
        split
        · split
          · split
            · exact (hs.keep (keeps_img _ s) (by decide)).finishSweep _ _ _ _
            · exact hs.finishSweep _ _ _ _
          · exact hset _
        · exact hs.finishSweep _ _ _ _
      · exact hs

theorem Continues.meetUnknown (hs : Continues g s₀ s) (mac : Mac) (slot : Fin 16) (raw : Byte) : Continues g s₀ (meetUnknown mac slot raw s) := by
  unfold Machine.meetUnknown
  split
  · exact hs
  · exact (hs.offer _).keep (keeps_sta _ _) (by decide)

theorem Continues.statusDecision (hs : Continues g s₀ s) : Continues g s₀ (statusDecision s) := by
  have hunknown (r : StatusRecord) {u : State} (hu : Continues g s₀ u) : Continues g s₀ (unknownStatus r u).state := by
    unfold unknownStatus
    dsimp only
    split
    · exact hu.keep (modCounts_keeps _ _ u) (by decide)
    · exact (hu.keep (modCounts_keeps _ _ u) (by decide)).meetUnknown _ _ _
  have hdecide (r : StatusRecord) {u : State} (hu : Continues g s₀ u) : Continues g s₀ (decideStatus r u).state := by
    unfold decideStatus
    split
    · exact hunknown r hu
    · split
      · exact hunknown r hu
      · next i _ _ st _ =>
        cases h : st.closed with
        | true => exact hu.keep (takenStatus_closed_keeps r i u h) (by decide)
        | false => exact hu.keep (takenStatus_open_keeps r i u h) (by decide)
  unfold Machine.statusDecision
  split
  · exact hs
  · split
    · exact hs
    · exact (hdecide _ (hs.keep (dropHeld_keeps s) (by decide))).keep (releaseRewritten_keeps _ _ _) (by decide)

theorem Continues.signalSample (hs : Continues g s₀ s) (i : Nat) : Continues g s₀ (signalSample i s) := by
  have hsig (x : SignalUnit) : Continues g s₀ { s with sig := x } := hs.keep (keeps_sig x s) (by decide)
  unfold Machine.signalSample
  split
  · exact hs
  · split
    · exact hs
    · dsimp only
      split
      · exact hsig _
      · split
        · exact hsig _
        · split
          · exact hsig _
          · exact (((hsig _).keep (keeps_sig _ _) (by decide)).keep (keeps_sta _ _) (by decide)).offerAll _

theorem Continues.writeArrival (hs : Continues g s₀ s) (a : TxnAddr) : Continues g s₀ (writeArrival a s) := by
  have hentered (w : WriteTx) : Continues g s₀ (enterWrite w s) := hs.keep (keeps_path _ s) (by decide)
  unfold Machine.writeArrival
  split
  · split
    · exact (hentered _).reportRefusal _ _
    · exact hentered _
  · exact hs

theorem Continues.reportResponse (hs : Continues g s₀ s) (tag : Nat) (resp : Resp) : Continues g s₀ (reportResponse tag resp s) := by
  have hnext {u : State} (h : Continues g s₀ u) : Continues g s₀ (writeNext u) := h.keep (writeNext_keeps u) (by decide)
  have hpop : Continues g s₀ (popWaiting (dropOwn tag s)) := hs.same rfl rfl
  unfold Machine.reportResponse
  split
  · dsimp only
    split
    · exact hnext (hpop.same rfl rfl)
    · exact hnext (hpop.same rfl rfl)
  · exact hs

theorem Continues.headResponse (hs : Continues g s₀ s) (tag : Nat) (resp : Resp) : Continues g s₀ (headResponse tag resp s) := by
  unfold Machine.headResponse
  split
  · dsimp only
    split
    · exact hs.same rfl rfl
    · exact hs.same rfl rfl
  · exact hs

theorem Continues.bootReadComplete (hs : Continues g s₀ s) (resps : List Resp) (data : List Byte) :
    Continues g s₀ (bootReadComplete resps data s) := by
  have hstart (d : StartUp) :
      Continues g s₀ (requestHead { s with boot := .opened, img := { s.img with bank := d.bank, trial := d.trial, record := d.record } }) :=
    hs.same rfl rfl
  unfold Machine.bootReadComplete
  split
  · exact (hstart _).offer _
  · exact hs

theorem Continues.boundarySteps (hs : Continues g s₀ s) : Continues g s₀ (boundarySteps s) := by
  have hmap {u : State} (f : Station → Station) (hu : Continues g s₀ u) : Continues g s₀ (mapStations f u) :=
    hu.keep (mapStations_keeps f u) (by decide)
  have hroll {u : State} (hu : Continues g s₀ u) : Continues g s₀ (if s.sched.clock.rollsOver then rollover u else u) := by
    split
    · exact (hmap _ hu).keep (keeps_sta _ _) (by decide)
    · exact hu
  have hcommit {u : State} (hu : Continues g s₀ u) : Continues g s₀ (applyCommit u) := by
    unfold applyCommit
    split
    · exact hu
    · exact (hmap _ (hu.keep (keeps_sched _ u) (by decide))).offer _
  have hcheck {u : State} (hu : Continues g s₀ u) : Continues g s₀ (checkActivation u) := by
    unfold checkActivation
    split
    · exact (hu.keep (keeps_img _ u) (by decide)).offer _
    · exact hu
  have hwarn {u : State} (hu : Continues g s₀ u) : Continues g s₀ (warnLow u) := (hmap _ hu).offerAll _
  exact (hcheck (hmap _ (hcommit (hroll (hwarn (hmap _ (hmap _ hs))))))).offerAll _

theorem Continues.takeBoundary (hs : Continues g s₀ s) : Continues g s₀ (takeBoundary s) :=
  (hs.keep (keeps_sched _ s) (by decide)).boundarySteps

theorem Continues.minuteBoundary (hs : Continues g s₀ s) : Continues g s₀ (minuteBoundary s) := by
  unfold Machine.minuteBoundary
  split
  · split
    · unfold boundaryInReset
      dsimp only
      split
      · exact hs.same rfl rfl
      · exact hs.keep (keeps_sched _ s) (by decide)
    · exact hs.takeBoundary
  · exact hs

theorem Continues.lineEdge (hs : Continues g s₀ s) : Continues g s₀ (lineEdge s) := by
  have hpause (v : Bool) {u : State} (hu : Continues g s₀ u) : Continues g s₀ (pauseEdge v u) :=
    ((hu.keep (mapStations_keeps _ u) (by decide)).offer _).offerAll _
  have hsync {u : State} (hu : Continues g s₀ u) : Continues g s₀ (syncEdge u) := by
    unfold syncEdge
    dsimp only
    split
    · exact ((hu.offer _).keep (keeps_sched _ _) (by decide)).takeBoundary
    · exact (hu.keep (keeps_sched _ u) (by decide)).offer _
  have hlevel (x : Schedule) : Continues g s₀ { s with sched := x } := hs.keep (keeps_sched x s) (by decide)
  unfold Machine.lineEdge
  dsimp only
  split
  · split
    · exact hlevel _
    · split
      · exact hpause _ (hlevel _)
      · split
        · exact hpause _ (hlevel _)
        · exact (hlevel _).offer _
    · split
      · exact hsync (hlevel _)
      · exact hlevel _
  · exact hs

theorem Continues.pacingBoundary (hs : Continues g s₀ s) : Continues g s₀ (pacingBoundary s) := by
  have happly {u : State} (hu : Continues g s₀ u) : Continues g s₀ (applyStaged u) := by
    unfold applyStaged
    dsimp only
    split
    · exact (((hu.keep (keeps_adm _ u) (by decide)).offer _).keep (keeps_adm _ _) (by decide)).offerAll _
    · exact (hu.keep (keeps_adm _ u) (by decide)).offerAll _
  have hdemote {u : State} (hu : Continues g s₀ u) : Continues g s₀ (demoteFlows u) := by
    have hwritten (c : Classifier) (a : Admission) : Continues g s₀ { u with cls := c, adm := a } := hu.same rfl rfl
    exact (hwritten _ _).offerAll _
  unfold Machine.pacingBoundary
  split
  · exact ((hdemote (happly (hs.keep (keeps_adm _ s) (by decide)))).keep (clearPeriod_keeps _) (by decide)).keep (keeps_adm _ _) (by decide)
  · exact hs

end Continuing

end Sys2Proof.Machine

/-! SUPPORT. What a handoff and its slot say of each other (R130, R133) and what the Command Unit waits for: the invariant index by index,
and what HANDOFF_BEGIN, a release and the end of a dump do to it. -/

namespace Sys2Proof.Machine

open Sys2Proof

/-! ### The handoff invariant, index by index -/

/-- The station whose handoff a slot is OCCUPIED for. -/
def HandoffSlot.holder (h : HandoffSlot) : Option (Fin 128) :=
  match h with
  | .free => none
  | .occupied o => some o.station
  | .dumping _ => none

/-- The slot is DUMPING. -/
def HandoffSlot.isDumping (h : HandoffSlot) : Bool :=
  match h with
  | .free => false
  | .occupied _ => false
  | .dumping _ => true

/-- What a record says of a handoff: whether its station is in HANDOFF, and its slot field. -/
def seat (o : Option Station) : Bool × Option (Fin 16) := o.elim (false, none) fun st => (decide (st.state = .handoff), st.slot)

/-- A station's seat and the slots agree: out of HANDOFF with no slot, or in HANDOFF with the one slot OCCUPIED for it. -/
def Seated (v : Vector (Option Station) 128) (h : Vector HandoffSlot 16) (i : Fin 128) : Prop :=
  seat v[i] = (false, none) ∧ (∀ k : Fin 16, h[k].holder ≠ some i) ∨
    ∃ k, seat v[i] = (true, some k) ∧ ∀ k' : Fin 16, h[k'].holder = some i ↔ k' = k

/-- What the command in execution waits for: a DUMPING slot, or a station out of HANDOFF; and it stands in the Command Queue. -/
def Awaits (s : State) : Prop :=
  match s.cmd.executing with
  | .idle => True
  | .ending k => (s.hold.slots[k]).isDumping = true ∧ s.cmd.queue ≠ []
  | .clearing k i => (s.hold.slots[k]).isDumping = true ∧ (seat s.sta.stations[i]).1 = false ∧ s.cmd.queue ≠ []
  | .removing i => (seat s.sta.stations[i]).1 = false ∧ s.cmd.queue ≠ []
  | .emptying i => (seat s.sta.stations[i]).1 = false ∧ s.cmd.queue ≠ []
  | .stats _ _ _ _ => s.cmd.queue ≠ []

theorem holder_eq_some {h : HandoffSlot} {i : Fin 128} : h.holder = some i ↔ ∃ o, h = .occupied o ∧ o.station = i := by
  cases h <;> simp [HandoffSlot.holder]

theorem isDumping_iff {h : HandoffSlot} : h.isDumping = true ↔ ∃ d, h = .dumping d := by
  cases h <;> simp [HandoffSlot.isDumping]

theorem seat_some (st : Station) : seat (some st) = (decide (st.state = .handoff), st.slot) := rfl

theorem seat_away {o : Option Station} : (seat o).1 = false ↔ ∀ st, o = some st → st.state ≠ .handoff := by
  cases o <;> simp [seat]

theorem awaits_iff (s : State) : Awaits s ↔
    (∀ k : Fin 16, (s.cmd.executing = .ending k ∨ ∃ i, s.cmd.executing = .clearing k i) → ∃ d, s.hold.slots[k] = .dumping d) ∧
    (∀ i : Fin 128, (s.cmd.executing = .removing i ∨ s.cmd.executing = .emptying i ∨ ∃ k, s.cmd.executing = .clearing k i) →
      ∀ st, s.sta.stations[i] = some st → st.state ≠ .handoff) ∧
    (s.cmd.executing ≠ .idle → s.cmd.queue ≠ []) := by
  unfold Awaits
  cases s.cmd.executing <;> simp [isDumping_iff, seat_away]

theorem seated_iff (v : Vector (Option Station) 128) (h : Vector HandoffSlot 16) : (∀ i, Seated v h i) ↔
    (∀ (i : Fin 128) (st : Station), v[i] = some st →
      (st.state = .handoff ↔ ∃ (k : Fin 16) (o : Occupied), h[k] = .occupied o ∧ o.station = i) ∧
      (st.state = .handoff → ∃ (k : Fin 16) (o : Occupied), st.slot = some k ∧ h[k] = .occupied o ∧ o.station = i) ∧
      (st.state ≠ .handoff → st.slot = none)) ∧
    ∀ (k : Fin 16) (o : Occupied), h[k] = .occupied o → ∃ st, v[o.station] = some st ∧ st.state = .handoff ∧ st.slot = some k := by
  constructor
  · intro hall
    refine ⟨fun i st hst => ?_, fun k o hk => ?_⟩
    · obtain ⟨hs, hn⟩ | ⟨k, hs, hk⟩ := hall i <;> rw [hst, seat_some, Prod.mk.injEq] at hs
      · have haway : st.state ≠ .handoff := of_decide_eq_false hs.1
        refine ⟨⟨fun h => absurd h haway, fun ⟨k, o, hk, ho⟩ => absurd (holder_eq_some.2 ⟨o, hk, ho⟩) (hn k)⟩, fun h => absurd h haway,
          fun _ => hs.2⟩
      · have hin : st.state = .handoff := of_decide_eq_true hs.1
        obtain ⟨o, hko, ho⟩ := holder_eq_some.1 ((hk k).2 rfl)
        exact ⟨⟨fun _ => ⟨k, o, hko, ho⟩, fun _ => hin⟩, fun _ => ⟨k, o, hs.2, hko, ho⟩, fun h => absurd hin h⟩
    · have hholder : h[k].holder = some o.station := holder_eq_some.2 ⟨o, hk, rfl⟩
      obtain ⟨-, hn⟩ | ⟨k', hs, hk'⟩ := hall o.station
      · exact absurd hholder (hn k)
      · cases hv : v[o.station] with
        | none => rw [hv] at hs; cases hs
        | some st =>
          rw [hv, seat_some, Prod.mk.injEq, ← (hk' k).1 hholder] at hs
          exact ⟨st, rfl, of_decide_eq_true hs.1, hs.2⟩
  · intro ⟨hrec, hslot⟩ i
    cases hv : v[i] with
    | none =>
      refine .inl ⟨by rw [hv]; rfl, fun k hk => ?_⟩
      obtain ⟨o, hko, rfl⟩ := holder_eq_some.1 hk
      obtain ⟨st, hst, -⟩ := hslot k o hko
      rw [hv] at hst
      cases hst
    | some st =>
      obtain ⟨hiff, hin, hout⟩ := hrec i st hv
      by_cases hst : st.state = .handoff
      · obtain ⟨k, o, hks, hko, ho⟩ := hin hst
        refine .inr ⟨k, by rw [hv, seat_some, hks, decide_eq_true hst], fun k' => ⟨fun hk' => ?_, fun h => holder_eq_some.2 ⟨o, h ▸ hko, ho⟩⟩⟩
        obtain ⟨o', hko', rfl⟩ := holder_eq_some.1 hk'
        obtain ⟨st', hst', -, hs'⟩ := hslot k' o' hko'
        rw [hv] at hst'
        cases hst'
        exact Option.some.inj (hs'.symm.trans hks)
      · refine .inl ⟨by rw [hv, seat_some, hout hst, decide_eq_false hst], fun k hk => hst (hiff.2 ?_)⟩
        obtain ⟨o, hko, ho⟩ := holder_eq_some.1 hk
        exact ⟨k, o, hko, ho⟩

theorem handoffInv_iff (s : State) : HandoffInv s ↔ (∀ i, Seated s.sta.stations s.hold.slots i) ∧ Awaits s := by
  rw [seated_iff, awaits_iff, HandoffInv, and_assoc]

/-! ### What keeps it -/

/-- The seats of the stations and the holders and dumps of the slots are the same in two states. -/
structure SameHandoffs (s t : State) : Prop where
  seats   : ∀ i : Fin 128, seat t.sta.stations[i] = seat s.sta.stations[i]
  holders : ∀ k : Fin 16, (t.hold.slots[k]).holder = (s.hold.slots[k]).holder
  dumps   : ∀ k : Fin 16, (t.hold.slots[k]).isDumping = (s.hold.slots[k]).isDumping

section Handoffs

variable {s t u : State}

theorem QuietStations.seats (h : QuietStations s t) (i : Fin 128) : seat t.sta.stations[i] = seat s.sta.stations[i] := by
  obtain ⟨hs, ht⟩ | ⟨a, b, hs, ht, -, hstate, -, hslot, -⟩ := h.table i <;> rw [hs, ht]
  rw [seat_some, seat_some, hstate, hslot]

theorem SameHandoffs.quiet (h : QuietStations s t) (hh : t.hold.slots = s.hold.slots) : SameHandoffs s t :=
  ⟨h.seats, fun k => by rw [hh], fun k => by rw [hh]⟩

theorem SameHandoffs.seated (h : SameHandoffs s t) (hs : ∀ i, Seated s.sta.stations s.hold.slots i) (i : Fin 128) :
    Seated t.sta.stations t.hold.slots i := by
  simpa only [Seated, h.seats, h.holders] using hs i

theorem SameHandoffs.awaits (h : SameHandoffs s t) (hs : Awaits s) (hc : Continues true s t) : Awaits t := by
  unfold Awaits at hs ⊢
  rw [hc.1]
  cases he : s.cmd.executing with
  | idle => trivial
  | ending k =>
    rw [he] at hs
    exact ⟨(h.dumps k).trans hs.1, hc.nonempty hs.2⟩
  | clearing k i =>
    rw [he] at hs
    exact ⟨(h.dumps k).trans hs.1, (congrArg Prod.fst (h.seats i)).trans hs.2.1, hc.nonempty hs.2.2⟩
  | removing i =>
    rw [he] at hs
    exact ⟨(congrArg Prod.fst (h.seats i)).trans hs.1, hc.nonempty hs.2⟩
  | emptying i =>
    rw [he] at hs
    exact ⟨(congrArg Prod.fst (h.seats i)).trans hs.1, hc.nonempty hs.2⟩
  | stats _ _ _ _ =>
    rw [he] at hs
    exact hc.nonempty hs

theorem awaits_idle (h : s.cmd.executing = .idle) : Awaits s := by
  unfold Awaits
  rw [h]
  trivial

theorem HandoffInv.same (hs : HandoffInv s) (h : SameHandoffs s t) (hc : Continues true s t) : HandoffInv t := by
  rw [handoffInv_iff] at hs ⊢
  exact ⟨h.seated hs.1, h.awaits hs.2 hc⟩

theorem HandoffInv.idle (hs : ∀ i, Seated t.sta.stations t.hold.slots i) (h : t.cmd.executing = .idle) : HandoffInv t :=
  (handoffInv_iff t).2 ⟨hs, awaits_idle h⟩

theorem HandoffInv.quiet (hs : HandoffInv s) (h : QuietStations s t) (hh : t.hold.slots = s.hold.slots) (hc : Continues true s t) : HandoffInv t :=
  hs.same (.quiet h hh) hc

theorem HandoffInv.keep {bs : List Block} (hs : HandoffInv s) (h : KeepsAllBut bs s t) (hb : Block.sta ∉ bs ∧ Block.hold ∉ bs)
    (hc : Continues true s t) : HandoffInv t := hs.quiet (.keep h hb.1) (by rw [h .hold hb.2]) hc

/-- A record in no handoff gives way to another in none. -/
theorem seats_put {i : Fin 128} {o : Option Station} (h : seat o = seat s.sta.stations[i]) (j : Fin 128) :
    seat (putStation i o s).sta.stations[j] = seat s.sta.stations[j] := by
  rw [show (putStation i o s).sta.stations[j] = _ from vput_at _ i j o]
  split
  · next hj => rw [hj, h]
  · rfl

theorem seats_mod {i : Fin 128} {f : Station → Station} (h : ∀ st, s.sta.stations[i] = some st → seat (some (f st)) = seat (some st))
    (j : Fin 128) : seat (modStation i f s).sta.stations[j] = seat s.sta.stations[j] := by
  rw [modStation_at]
  split
  · next hj =>
    rw [hj]
    cases hst : s.sta.stations[i] with
    | none => rfl
    | some st => exact h st hst
  · rfl

/-! ### The end of a command -/

theorem captureHeld_executing (s : State) : (captureHeld s).cmd.executing = s.cmd.executing := by
  unfold captureHeld
  split
  · rfl
  · split
    · split <;> rfl
    · rfl

theorem completeCommand_idle (status : Status) (result : List Byte) (h : s.cmd.executing = .idle ∨ s.cmd.queue ≠ []) :
    (completeCommand status result s).cmd.executing = .idle := by
  unfold completeCommand
  split
  · next hq => exact h.resolve_right fun hn => hn hq
  · dsimp only
    rw [captureHeld_executing]

theorem completeCommand_same (status : Status) (result : List Byte) (s : State) : SameHandoffs s (completeCommand status result s) :=
  .quiet (quiet_completeCommand status result s) (by rw [completeCommand_hold])

theorem HandoffInv.complete (hs : ∀ i, Seated s.sta.stations s.hold.slots i) (h : s.cmd.executing = .idle ∨ s.cmd.queue ≠ [])
    (status : Status) (result : List Byte) : HandoffInv (completeCommand status result s) :=
  .idle ((completeCommand_same status result s).seated hs) (completeCommand_idle status result h)

/-! ### HANDOFF_BEGIN and the release of a handoff -/

/-- The lowest FREE slot takes the handoff of a station out of HANDOFF. -/
theorem Seated.begin {v w : Vector (Option Station) 128} {h : Vector HandoffSlot 16} (hs : ∀ i, Seated v h i) {i : Fin 128} {k : Fin 16}
    {o : Occupied} (ho : o.station = i) (hk : h[k].holder = none) (hi : (seat v[i]).1 = false) (hw : seat w[i] = (true, some k))
    (hj : ∀ j : Fin 128, j ≠ i → seat w[j] = seat v[j]) (j : Fin 128) : Seated w (vput h k (.occupied o)) j := by
  have hholder (k' : Fin 16) : ((vput h k (.occupied o))[k']).holder = if k' = k then some i else h[k'].holder := by
    rw [vput_at]
    split
    · exact congrArg some ho
    · rfl
  unfold Seated
  simp only [hholder]
  by_cases hji : j = i
  · subst hji
    refine .inr ⟨k, hw, fun k' => ?_⟩
    split
    · next h => exact iff_of_true rfl h
    · next h =>
      refine iff_of_false (fun hk' => ?_) h
      obtain ⟨-, hn⟩ | ⟨k₀, hs', -⟩ := hs j
      · exact hn k' hk'
      · rw [hs'] at hi; cases hi
  · rw [hj j hji]
    obtain ⟨hs', hn⟩ | ⟨k₀, hs', hk₀⟩ := hs j
    · refine .inl ⟨hs', fun k' => ?_⟩
      split
      · exact fun h => hji (Option.some.inj h).symm
      · exact hn k'
    · refine .inr ⟨k₀, hs', fun k' => ?_⟩
      split
      · next h =>
        refine iff_of_false (fun h => hji (Option.some.inj h).symm) fun h' => ?_
        have := (hk₀ k').2 h'
        rw [h, hk] at this
        cases this
      · exact hk₀ k'

/-- A slot that is OCCUPIED no more, and its station out of HANDOFF. -/
theorem Seated.release {v w : Vector (Option Station) 128} {h : Vector HandoffSlot 16} (hs : ∀ i, Seated v h i) {i : Fin 128} {k : Fin 16}
    {x : HandoffSlot} (hx : x.holder = none) (hk : h[k].holder = some i) (hw : seat w[i] = (false, none))
    (hj : ∀ j : Fin 128, j ≠ i → seat w[j] = seat v[j]) (j : Fin 128) : Seated w (vput h k x) j := by
  have hholder (k' : Fin 16) : ((vput h k x)[k']).holder = if k' = k then none else h[k'].holder := by
    rw [vput_at]
    split
    · exact hx
    · rfl
  unfold Seated
  simp only [hholder]
  by_cases hji : j = i
  · subst hji
    refine .inl ⟨hw, fun k' => ?_⟩
    split
    · exact nofun
    · next h =>
      obtain ⟨-, hn⟩ | ⟨k₀, -, hk₀⟩ := hs j
      · exact hn k'
      · exact fun hk' => h (((hk₀ k').1 hk').trans ((hk₀ k).1 hk).symm)
  · rw [hj j hji]
    obtain ⟨hs', hn⟩ | ⟨k₀, hs', hk₀⟩ := hs j
    · refine .inl ⟨hs', fun k' => ?_⟩
      split
      · exact nofun
      · exact hn k'
    · refine .inr ⟨k₀, hs', fun k' => ?_⟩
      split
      · next h =>
        refine iff_of_false nofun fun h' => ?_
        have := (hk₀ k').2 h'
        rw [h, hk] at this
        exact hji (Option.some.inj this).symm
      · exact hk₀ k'

theorem Seated.freed {v : Vector (Option Station) 128} {h : Vector HandoffSlot 16} (hs : ∀ i, Seated v h i) {k : Fin 16} {x : HandoffSlot}
    (hx : x.holder = h[k].holder) (i : Fin 128) : Seated v (vput h k x) i := by
  have hholder (k' : Fin 16) : ((vput h k x)[k']).holder = h[k'].holder := by
    rw [vput_at]
    split
    · next h => rw [hx, h]
    · rfl
  simpa only [Seated, hholder] using hs i

/-- What HOLD_RELEASE will carry. -/
def dumpOf (outcome : HandoffOutcome) (st : Station) (o : Occupied) : Dumping :=
  let refs := o.list.map fun r => (r, releaseDisposition outcome st.closed)
  { station := o.station, tag := o.tag, start := o.start, requests := o.requests, buffer := refs, outcome := outcome,
    overflow := st.overflow, fault := false, awaited := dumpWrites refs.length }

/-- The release taken, its dump still to be requested. -/
def releaseTaken (outcome : HandoffOutcome) (i : Fin 128) (st : Station) (k : Fin 16) (o : Occupied) (s : State) : State :=
  let s := putSlot k (.dumping (dumpOf outcome st o)) s
  let s := { s with hold := countRelease outcome { s.hold with free := s.hold.free + o.list.length } }
  modStation i (releasedStation outcome (s.after s.sig.profiles[st.roam].holdoff)) s

theorem takeRelease_eq (outcome : HandoffOutcome) (i : Fin 128) (st : Station) (k : Fin 16) (o : Occupied) (s : State) :
    takeRelease outcome i st k o s =
      if (dumpOf outcome st o).buffer.length = 0 then
        finishDump k (dumpOf outcome st o) (requestDump k (dumpOf outcome st o).buffer (releaseTaken outcome i st k o s))
      else requestDump k (dumpOf outcome st o).buffer (releaseTaken outcome i st k o s) := rfl

theorem releaseTaken_slots (outcome : HandoffOutcome) (i : Fin 128) (st : Station) (k : Fin 16) (o : Occupied) (s : State) :
    (releaseTaken outcome i st k o s).hold.slots = vput s.hold.slots k (.dumping (dumpOf outcome st o)) := by cases outcome <;> rfl

theorem releasedStation_seat (outcome : HandoffOutcome) (deadline : Nat) (st : Station) :
    seat (some (releasedStation outcome deadline st)) = (false, none) := by cases outcome <;> rfl

theorem releaseTaken_stations (outcome : HandoffOutcome) {i : Fin 128} {st : Station} (k : Fin 16) (o : Occupied) {s : State}
    (hst : s.sta.stations[i] = some st) (j : Fin 128) :
    seat (releaseTaken outcome i st k o s).sta.stations[j] = if j = i then (false, none) else seat s.sta.stations[j] := by
  have hat : (releaseTaken outcome i st k o s).sta.stations[j] = _ := modStation_at i j _ _
  rw [hat]
  split
  · change seat (Option.map _ s.sta.stations[i]) = _
    rw [hst]
    exact releasedStation_seat outcome _ st
  · rfl

theorem handoffOf_eq_some {h : HoldUnit} {st : Station} {k : Fin 16} {o : Occupied} (ho : handoffOf h st = some (k, o)) :
    st.state = .handoff ∧ st.slot = some k ∧ h.slots[k] = .occupied o := by
  unfold handoffOf at ho
  split at ho
  · next hst =>
    split at ho
    · cases ho
    · next k' hk' =>
      split at ho
      · next o' ho' =>
        cases ho
        exact ⟨hst, hk', ho'⟩
      · cases ho
      · cases ho
  · cases ho

/-- The seat of the station named tells that the slot is OCCUPIED for it. -/
theorem handoffOf_holder {i : Fin 128} {st : Station} {k : Fin 16} {o : Occupied} (hs : ∀ i, Seated s.sta.stations s.hold.slots i)
    (hst : s.sta.stations[i] = some st) (ho : handoffOf s.hold st = some (k, o)) : (s.hold.slots[k]).holder = some i := by
  obtain ⟨hstate, hslot, -⟩ := handoffOf_eq_some ho
  obtain ⟨hseat, -⟩ | ⟨k', hseat, hk'⟩ := hs i <;> rw [hst, seat_some, Prod.mk.injEq] at hseat
  · exact absurd hstate (of_decide_eq_false hseat.1)
  · exact (hk' k).2 (Option.some.inj (hslot.symm.trans hseat.2))

theorem releaseTaken_seated {i : Fin 128} {st : Station} {k : Fin 16} {o : Occupied} (outcome : HandoffOutcome)
    (hs : ∀ i, Seated s.sta.stations s.hold.slots i) (hst : s.sta.stations[i] = some st) (ho : handoffOf s.hold st = some (k, o)) (j : Fin 128) :
    Seated (releaseTaken outcome i st k o s).sta.stations (releaseTaken outcome i st k o s).hold.slots j := by
  rw [releaseTaken_slots]
  refine Seated.release hs rfl (handoffOf_holder hs hst ho) ?_ (fun j hj => ?_) j
  · rw [releaseTaken_stations outcome k o hst, if_pos rfl]
  · rw [releaseTaken_stations outcome k o hst, if_neg hj]

theorem resumeCommand_same (k : Fin 16) (s : State) : SameHandoffs s (resumeCommand k s) :=
  .quiet (.keep (resumeCommand_keeps k s) (by decide)) (by rw [resumeCommand_keeps k s .hold (by decide)])

/-- The slot becomes FREE, and the command that waited for it goes on. -/
theorem HandoffInv.resume (hs : HandoffInv s) {k : Fin 16} (hk : (s.hold.slots[k]).isDumping = true) : HandoffInv (resumeCommand k (putSlot k .free s)) := by
  rw [handoffInv_iff] at hs ⊢
  obtain ⟨hseat, haw⟩ := hs
  have hholder : HandoffSlot.free.holder = (s.hold.slots[k]).holder := by
    obtain ⟨d, hd⟩ := isDumping_iff.1 hk
    rw [hd]
    rfl
  have hseat' : ∀ i, Seated (putSlot k .free s).sta.stations (putSlot k .free s).hold.slots i := Seated.freed hseat hholder
  refine ⟨(resumeCommand_same k _).seated hseat', ?_⟩
  have hother {k' : Fin 16} (h : ¬k' = k) (hd : (s.hold.slots[k']).isDumping = true) :
      ((putSlot k .free s).hold.slots[k']).isDumping = true := by
    rw [show (putSlot k .free s).hold.slots[k'] = _ from vput_at _ k k' _, if_neg h]
    exact hd
  have hexec : (putSlot k .free s).cmd = s.cmd := rfl
  unfold resumeCommand
  unfold Awaits at haw
  cases he : s.cmd.executing with
  | idle =>
    simp only [hexec, he]
    exact awaits_idle he
  | ending k' =>
    rw [he] at haw
    simp only [hexec, he]
    split
    · exact awaits_idle (completeCommand_idle _ _ (.inr haw.2))
    · next h =>
      unfold Awaits
      rw [hexec, he]
      exact ⟨hother h haw.1, haw.2⟩
  | clearing k' i =>
    rw [he] at haw
    simp only [hexec, he]
    split
    · exact haw.2
    · next h =>
      unfold Awaits
      rw [hexec, he]
      exact ⟨hother h haw.1, haw.2⟩
  | removing i | emptying i | stats _ _ _ _ =>
    rw [he] at haw
    simp only [hexec, he]
    unfold Awaits
    rw [hexec, he]
    exact haw

theorem HandoffInv.offer (hs : HandoffInv s) (r : Report) : HandoffInv (offer r s) :=
  hs.keep (offer_keeps r s) (by decide) ((Continues.refl s).offer r)

theorem HandoffInv.finishDump (hs : HandoffInv s) {k : Fin 16} (hk : (s.hold.slots[k]).isDumping = true) (d : Dumping) :
    HandoffInv (finishDump k d s) := by
  unfold Machine.finishDump
  refine HandoffInv.resume (hs.offer _) ?_
  rw [offer_hold]
  exact hk

theorem HandoffInv.requestDump (hs : HandoffInv s) (k : Fin 16) (refs : List (HoldRef × Disposition)) : HandoffInv (requestDump k refs s) :=
  hs.keep (requestDump_keeps k refs s) (by decide) ((Continues.refl s).keep (requestDump_keeps k refs s) (by decide))

/-- After a release is taken the rest of it keeps the invariant. -/
theorem HandoffInv.takeRelease {outcome : HandoffOutcome} {i : Fin 128} {st : Station} {k : Fin 16} {o : Occupied}
    (h : HandoffInv (releaseTaken outcome i st k o s)) : HandoffInv (takeRelease outcome i st k o s) := by
  rw [takeRelease_eq]
  split
  · refine (h.requestDump k _).finishDump ?_ _
    rw [requestDump_keeps k _ _ .hold (by decide), releaseTaken_slots, vput_same]
    rfl
  · exact h.requestDump k _

end Handoffs

end Sys2Proof.Machine

/-! SUPPORT. Every event keeps what a handoff and its slot say of each other (R130, R133): `HandoffInv.exec`. -/

namespace Sys2Proof.Machine

open Sys2Proof

section Handoffs

variable {s t u : State}

theorem releaseTaken_cmd (outcome : HandoffOutcome) (i : Fin 128) (st : Station) (k : Fin 16) (o : Occupied) (s : State) :
    (releaseTaken outcome i st k o s).cmd = s.cmd := rfl

/-- A release taken of a handoff that no command waits for. -/
theorem releaseTaken_awaits {i : Fin 128} {st : Station} (outcome : HandoffOutcome) (k : Fin 16) (o : Occupied)
    (hs : Awaits s) (hst : s.sta.stations[i] = some st) : Awaits (releaseTaken outcome i st k o s) := by
  have hseat {j : Fin 128} (h : (seat s.sta.stations[j]).1 = false) : (seat (releaseTaken outcome i st k o s).sta.stations[j]).1 = false := by
    rw [releaseTaken_stations outcome k o hst]
    split
    · rfl
    · exact h
  have hdump {k' : Fin 16} (h : (s.hold.slots[k']).isDumping = true) :
      ((releaseTaken outcome i st k o s).hold.slots[k']).isDumping = true := by
    rw [releaseTaken_slots, vput_at]
    split
    · rfl
    · exact h
  unfold Awaits at hs ⊢
  rw [releaseTaken_cmd]
  cases he : s.cmd.executing with
  | idle => trivial
  | ending k' => rw [he] at hs; exact ⟨hdump hs.1, hs.2⟩
  | clearing k' j => rw [he] at hs; exact ⟨hdump hs.1, hseat hs.2.1, hs.2.2⟩
  | removing j | emptying j => rw [he] at hs; exact ⟨hseat hs.1, hs.2⟩
  | stats _ _ _ _ => rw [he] at hs; exact hs

theorem HandoffInv.visitStation (hs : HandoffInv s) (i : Fin 128) : HandoffInv (visitStation i s) := by
  have hmoved {st : Station} {state : Roam} (hst : s.sta.stations[i] = some st) (h : st.state ≠ .handoff) (h' : state ≠ .handoff) :
      HandoffInv (modStation i (fun st => { st with state := state, dwell := 0, deadline := 0 }) s) := by
    refine hs.same ⟨seats_mod fun st' hst' => ?_, fun _ => rfl, fun _ => rfl⟩ ((Continues.refl s).same rfl rfl)
    rw [hst] at hst'
    cases hst'
    rw [seat_some, seat_some, decide_eq_false h, decide_eq_false h']
  unfold Machine.visitStation
  split
  · exact hs
  · next st hst =>
    split
    · split
      · next h => exact HandoffInv.offer (hmoved hst (by rw [h]; decide) (by decide)) _
      · next h => exact hmoved hst (by rw [h]; decide) (by decide)
      · split
        · exact hs
        · next k o ho =>
          rw [handoffInv_iff] at hs
          exact HandoffInv.takeRelease ((handoffInv_iff _).2 ⟨releaseTaken_seated _ hs.1 hst ho, releaseTaken_awaits _ k o hs.2 hst⟩)
      · exact hs
      · exact hs
    · exact hs

theorem HandoffInv.visitFor (hs : HandoffInv s) (state : Roam) : HandoffInv (visitFor state s) := by
  unfold Machine.visitFor
  split
  · unfold visitStations
    dsimp only
    have hok := foldl_invariant (inv := HandoffInv) (fun _ i h => HandoffInv.visitStation h i) (List.finRange 128) hs
    generalize (List.finRange 128).foldl (fun s i => Machine.visitStation i s) s = u at hok ⊢
    exact hok.keep (keeps_time _ u) (by decide) ((Continues.refl u).same rfl rfl)
  · exact hs

/-! ### Commands -/

theorem seats_away (hs : ∀ i, Seated s.sta.stations s.hold.slots i) {i : Fin 128} (h : (seat s.sta.stations[i]).1 = false) :
    seat s.sta.stations[i] = (false, none) := by
  obtain ⟨h', -⟩ | ⟨k, h', -⟩ := hs i
  · exact h'
  · rw [h'] at h; cases h

theorem stationSet_seats (p : List Byte) (s : State) (i : Fin 128) :
    seat (stationSet p s).state.sta.stations[i] = seat s.sta.stations[i] := by
  obtain h | ⟨j, prof, roam, hn, -, -, -, h⟩ := stationSet_cases p s
  · exact h.seats i
  · rw [h, installStation_eq]
    change seat (offerAll _ _).sta.stations[i] = _
    rw [offerAll_sta]
    refine seats_put (s := s) (i := j) (o := some (installed s.sched s.sta.carry (macAt p 1) prof roam)) ?_ i
    rw [hn, installed_eq]
    rfl

theorem handoffDecline_seats (p : List Byte) (s : State) (i : Fin 128) :
    seat (handoffDecline p s).state.sta.stations[i] = seat s.sta.stations[i] := by
  unfold handoffDecline
  split
  · rfl
  · split
    · rfl
    · next st hst =>
      split
      · next hc =>
        refine seats_mod (fun st' hst' => ?_) i
        rw [hst] at hst'
        cases hst'
        rw [seat_some, seat_some, hc]
        rfl
      · rfl

theorem freeSlot_holder {h : HoldUnit} {k : Fin 16} (hk : freeSlot h = some k) : h.slots[k] = .free :=
  of_decide_eq_true (vfind_some (p := fun x => decide (x = HandoffSlot.free)) hk)

/-- HANDOFF_BEGIN leaves seats and slots, or takes the lowest FREE slot for a station out of HANDOFF. -/
theorem handoffBegin_seated (hs : ∀ i, Seated s.sta.stations s.hold.slots i) (p : List Byte) (j : Fin 128) :
    Seated (handoffBegin p s).state.sta.stations (handoffBegin p s).state.hold.slots j := by
  unfold handoffBegin
  split
  · next i _ _ _ =>
    split
    · exact hs j
    · next st hst =>
      split
      · exact hs j
      · next hstate =>
        split
        · exact hs j
        · split
          · exact hs j
          · next k hk =>
            have hat (j : Fin 128) (f : Station → Station) (u : State) (hu : u.sta = s.sta) :
                (modStation i f u).sta.stations[j] = if j = i then some (f st) else s.sta.stations[j] := by
              rw [modStation_at, hu, hst]
              rfl
            dsimp only
            refine Seated.begin (i := i) hs rfl (by rw [freeSlot_holder hk]; rfl) ?_ ?_ (fun j hj => ?_) j
            · rw [hst, seat_some]; exact decide_eq_false hstate
            · rw [hat i _ (putSlot k _ s) rfl, if_pos rfl]; rfl
            · rw [hat j _ (putSlot k _ s) rfl, if_neg hj]
  · exact hs j

theorem AtOnce.continues (a : AtOnce) (p : List Byte) (s : State) :
    Continues true s (a.owner p s).state := by
  obtain ⟨rs, hc, -⟩ := a.spec p s
  exact ((Continues.refl s).offerAll rs).same (by rw [hc]) (by rw [hc])

theorem atOnce_seated (hs : ∀ i, Seated s.sta.stations s.hold.slots i) {c : Instr} {a : AtOnce} (ha : atOnceOf c = some a) (p : List Byte)
    (i : Fin 128) : Seated (a.owner p s).state.sta.stations (a.owner p s).state.hold.slots i := by
  by_cases hb : c = .handoffBegin
  · subst hb
    cases ha
    exact handoffBegin_seated hs p i
  · have hhold : (a.owner p s).state.hold = s.hold := by
      obtain ⟨rs, hr⟩ := a.spec p s
      refine hr.keeps .hold ?_
      cases c <;> first | (cases ha; decide) | exact absurd rfl hb | exact absurd ha nofun
    have hseats : ∀ i : Fin 128, seat (a.owner p s).state.sta.stations[i] = seat s.sta.stations[i] := by
      by_cases hset : c = .stationSet
      · subst hset; cases ha; exact stationSet_seats p s
      · by_cases hdecline : c = .handoffDecline
        · subst hdecline; cases ha; exact handoffDecline_seats p s
        · exact (quiet_atOnce ha ⟨hset, hb, hdecline⟩ p s).seats
    exact SameHandoffs.seated ⟨hseats, fun k => by rw [hhold], fun k => by rw [hhold]⟩ hs i

/-- A command is taken while the Command Unit is free, and a complete one leaves it free. -/
theorem HandoffInv.runCommand (hs : HandoffInv s) (code : Nat) {owner : List Byte → State → State}
    (h : ∀ p, s.cmd.executing = .idle → s.cmd.queue ≠ [] → HandoffInv (owner p s)) : HandoffInv (runCommand code owner s) := by
  obtain he | ⟨hidle, -, c, rest, hq, he | he⟩ := runCommand_cases code owner s
  · rw [he]; exact hs
  · rw [he]; exact .complete ((handoffInv_iff s).1 hs).1 (.inl hidle) _ _
  · rw [he]; exact h _ hidle (by rw [hq]; exact List.cons_ne_nil _ _)

theorem HandoffInv.clearFlows (hs : ∀ i, Seated s.sta.stations s.hold.slots i) {i : Fin 128} (hi : (seat s.sta.stations[i]).1 = false)
    (hq : s.cmd.queue ≠ []) : HandoffInv (clearFlows i s) := (handoffInv_iff _).2 ⟨hs, hi, hq⟩

theorem HandoffInv.clearStep (hs : HandoffInv s) : HandoffInv (clearStep s) := by
  have hpair := (handoffInv_iff s).1 hs
  obtain ⟨hseat, haw⟩ := hpair
  unfold Awaits at haw
  unfold Machine.clearStep
  split
  · next i he =>
    rw [he] at haw
    split
    · exact hs
    · exact .clearFlows hseat haw.1 haw.2
  · next i he =>
    rw [he] at haw
    split
    · exact hs
    · refine HandoffInv.complete (s := emptyStation i s) (fun j => ?_) (.inr haw.2) _ _
      refine SameHandoffs.seated (s := s) ⟨seats_put (s := s) (i := i) (o := none) ?_, fun _ => rfl, fun _ => rfl⟩ hseat j
      rw [seats_away hseat haw.1]
      rfl
  all_goals exact hs

theorem handoffOf_none (hs : ∀ i, Seated s.sta.stations s.hold.slots i) {i : Fin 128} {st : Station} (hst : s.sta.stations[i] = some st)
    (h : handoffOf s.hold st = none) : st.state ≠ .handoff := by
  intro hstate
  obtain ⟨hseat, -⟩ | ⟨k, hseat, hk⟩ := hs i <;> rw [hst, seat_some, Prod.mk.injEq] at hseat
  · exact of_decide_eq_false hseat.1 hstate
  · obtain ⟨o, ho, -⟩ := holder_eq_some.1 ((hk k).2 rfl)
    have hslot : st.slot = some k := hseat.2
    simp only [handoffOf, hstate, if_true, hslot, ho] at h
    cases h

/-- The command that takes a release waits for the DUMPING slot. -/
theorem HandoffInv.released {i : Fin 128} {st : Station} {k : Fin 16} {o : Occupied} (hs : ∀ i, Seated s.sta.stations s.hold.slots i)
    (hst : s.sta.stations[i] = some st) (ho : handoffOf s.hold st = some (k, o)) (outcome : HandoffOutcome) {e : Executing}
    (he : e = .ending k ∨ e = .clearing k i) (hq : s.cmd.queue ≠ []) : HandoffInv (Machine.takeRelease outcome i st k o (setExecuting e s)) := by
  refine HandoffInv.takeRelease ((handoffInv_iff _).2 ⟨releaseTaken_seated (s := setExecuting e s) outcome hs hst ho, ?_⟩)
  have hdump : ((releaseTaken outcome i st k o (setExecuting e s)).hold.slots[k]).isDumping = true := by
    rw [releaseTaken_slots, vput_same]
    rfl
  unfold Awaits
  rw [releaseTaken_cmd]
  obtain he | he := he
  · subst he
    exact ⟨hdump, hq⟩
  · subst he
    refine ⟨hdump, ?_, hq⟩
    rw [releaseTaken_stations (s := setExecuting (.clearing k i) s) outcome k o hst, if_pos rfl]

theorem HandoffInv.stationClear (hs : HandoffInv s) (p : List Byte) (hidle : s.cmd.executing = .idle) (hq : s.cmd.queue ≠ []) :
    HandoffInv (stationClear p s) := by
  have hseat := ((handoffInv_iff s).1 hs).1
  unfold Machine.stationClear
  split
  · exact .complete hseat (.inl hidle) _ _
  · split
    · exact .complete hseat (.inl hidle) _ _
    · next st hst =>
      split
      · next k o ho => exact .released hseat hst ho _ (.inr rfl) hq
      · next ho =>
        refine .clearFlows hseat ?_ hq
        rw [hst, seat_some]
        exact decide_eq_false (handoffOf_none hseat hst ho)

theorem HandoffInv.handoffEnd (hs : HandoffInv s) (p : List Byte) (hidle : s.cmd.executing = .idle) (hq : s.cmd.queue ≠ []) :
    HandoffInv (handoffEnd p s) := by
  have hseat := ((handoffInv_iff s).1 hs).1
  unfold Machine.handoffEnd
  split
  · split
    · exact .complete hseat (.inl hidle) _ _
    · next st hst =>
      split
      · exact .complete hseat (.inl hidle) _ _
      · next k o ho => exact .released hseat hst ho _ (.inl rfl) hq
  · exact .complete hseat (.inl hidle) _ _

/-! ### The statistics -/

/-- A section's clearing changes no slot and leaves the Command Queue. -/
theorem clearSection_same (sec : Nat) (s : State) :
    (clearSection sec s).hold.slots = s.hold.slots ∧ (clearSection sec s).cmd.queue = s.cmd.queue := by
  unfold clearSection
  split
  · exact ⟨rfl, rfl⟩
  · split
    · exact ⟨rfl, rfl⟩
    · split
      · exact ⟨rfl, rfl⟩
      · have hkeep : KeepsAllBut [.sta] s (clearStations sec s) := foldl_keeps (fun u i => keeps_sta _ u) _ s
        exact ⟨by rw [hkeep .hold (by decide)], by rw [hkeep .cmd (by decide)]⟩

theorem takeSection_same (sec : Nat) (clear : Bool) (s : State) :
    (takeSection sec clear s).hold.slots = s.hold.slots ∧ (takeSection sec clear s).cmd.queue = s.cmd.queue ∧
      ∃ b n f, (takeSection sec clear s).cmd.executing = .stats sec b n f := by
  have hrequests (ws : List OwnWrite) (u : State) : KeepsAllBut [.own] u (ws.foldl (fun s w => request w s) u) :=
    foldl_keeps (fun u w => keeps_own _ u) ws u
  have hclear (u : State) : (if clear then clearSection sec u else u).hold.slots = u.hold.slots ∧
      (if clear then clearSection sec u else u).cmd.queue = u.cmd.queue := by
    split
    · exact clearSection_same sec u
    · exact ⟨rfl, rfl⟩
  unfold takeSection setExecuting
  dsimp only
  refine ⟨?_, ?_, _, _, _, rfl⟩
  · rw [hrequests _ _ .hold (by decide), (hclear _).1]
  · rw [hrequests _ _ .cmd (by decide), (hclear _).2]

theorem HandoffInv.stats (hs : HandoffInv s) (p : List Byte) (hidle : s.cmd.executing = .idle) (hq : s.cmd.queue ≠ []) :
    HandoffInv (stats p s) := by
  have hseat := ((handoffInv_iff s).1 hs).1
  have hquiet := quiet_stats p s
  unfold Machine.stats at hquiet ⊢
  split
  · exact .complete hseat (.inl hidle) _ _
  · next clear hflag =>
    split
    · next hsec =>
      rw [hflag] at hquiet
      simp only [if_pos hsec] at hquiet
      obtain ⟨hslots, hqueue, b, n, f, he⟩ := takeSection_same (param1 p 0) clear s
      refine (handoffInv_iff _).2 ⟨(SameHandoffs.quiet hquiet hslots).seated hseat, ?_⟩
      unfold Awaits
      rw [he]
      exact hqueue ▸ hq
    · exact .complete hseat (.inl hidle) _ _

theorem HandoffInv.statsResponse (hs : HandoffInv s) (tag : Nat) (resp : Resp) : HandoffInv (statsResponse tag resp s) := by
  have hpair := (handoffInv_iff s).1 hs
  obtain ⟨hseat, haw⟩ := hpair
  unfold Machine.statsResponse
  split
  · next sec bytes awaited fault _ he =>
    unfold Awaits at haw
    rw [he] at haw
    dsimp only
    split
    · refine HandoffInv.complete (fun i => ?_) (.inr ?_) _ _
      · rw [offer_sta, offer_hold]; exact hseat i
      · rw [offer_queue]; exact haw
    · exact (handoffInv_iff _).2 ⟨hseat, haw⟩
  · exact hs

/-! ### Dump responses, parking and samples -/

theorem HandoffInv.dumpResponse (hs : HandoffInv s) (tag : Nat) (resp : Resp) : HandoffInv (dumpResponse tag resp s) := by
  unfold Machine.dumpResponse
  split
  · next k hk =>
    split
    · next d hd =>
      have hcounted : HandoffInv (if resp = .okay then dropOwn tag s else
          { dropOwn tag s with hold := { s.hold with dumpFaults := satInc count32 s.hold.dumpFaults } }) ∧
          (if resp = .okay then dropOwn tag s else
          { dropOwn tag s with hold := { s.hold with dumpFaults := satInc count32 s.hold.dumpFaults } }).hold.slots[k] = .dumping d := by
        split
        · exact ⟨hs.same (.quiet (.same rfl) rfl) ((Continues.refl s).same rfl rfl), hd⟩
        · exact ⟨hs.same (.quiet (.same rfl) rfl) ((Continues.refl s).same rfl rfl), hd⟩
      obtain ⟨hcounted, hslot⟩ := hcounted
      dsimp only
      split
      · exact hcounted.finishDump (by rw [hslot]; rfl) _
      · refine hcounted.same ⟨fun _ => rfl, fun k' => ?_, fun k' => ?_⟩ ((Continues.refl _).same rfl rfl)
        · rw [show (putSlot k _ _).hold.slots[k'] = _ from vput_at _ k k' _]
          split
          · next h => rw [h, hslot]; rfl
          · rfl
        · rw [show (putSlot k _ _).hold.slots[k'] = _ from vput_at _ k k' _]
          split
          · next h => rw [h, hslot]; rfl
          · rfl
    · exact hs
    · exact hs
  · exact hs

/-- A parking request names an OCCUPIED slot, and leaves it OCCUPIED for its station. -/
theorem parkRequest_slots (k : Option (Fin 16)) (addr len : Nat) (slot : Fin 16) (s : State) (k' : Fin 16) :
    ((parkRequest k addr len slot s).2.hold.slots[k']).holder = (s.hold.slots[k']).holder ∧
      ((parkRequest k addr len slot s).2.hold.slots[k']).isDumping = (s.hold.slots[k']).isDumping := by
  unfold parkRequest
  split
  · exact ⟨rfl, rfl⟩
  · next k =>
    split
    · next o ho =>
      have hput (o' : Occupied) (h : o'.station = o.station) (x : HandoffSlot) (hx : x = (vput s.hold.slots k (.occupied o'))[k']) :
          x.holder = (s.hold.slots[k']).holder ∧ x.isDumping = (s.hold.slots[k']).isDumping := by
        rw [hx, vput_at]
        split
        · next hk => rw [hk, ho]; exact ⟨congrArg some h, rfl⟩
        · exact ⟨rfl, rfl⟩
      have hstation : (parkIn addr len slot o).2.station = o.station := by
        unfold parkIn
        dsimp only
        split <;> rfl
      dsimp only
      split
      · exact hput _ hstation _ rfl
      · exact hput _ hstation _ rfl
    · exact ⟨rfl, rfl⟩
    · exact ⟨rfl, rfl⟩

/-- A decision changes the Hold Unit by at most one parking request. -/
theorem decide5_hold (d : Descriptor) (s : State) : (decide5 d s).state.hold = s.hold ∨
    ∃ u k addr len slot, u.hold = s.hold ∧ (decide5 d s).state.hold = (parkRequest k addr len slot u).2.hold := by
  have hclassify (cap : Option Capture) (station : Option (Fin 128)) (noUrgent unresolved : Bool) (u : State) :
      (classifyStep d cap station noUrgent unresolved u).state.hold = u.hold := classifyStep_keeps _ _ _ _ _ u .hold (by decide)
  unfold decide5
  split
  · exact .inl (hclassify _ _ _ _ s)
  · next c _ =>
    unfold stationStep
    split
    · exact .inl (hclassify _ _ _ _ _)
    · split
      · exact .inl (hclassify _ _ _ _ _)
      · unfold gateStep
        split
        · exact .inl (discardDescriptor_keeps _ _ _ _ .hold (by decide))
        · next st _ _ =>
          unfold handoffStep
          split
          · refine .inr ⟨{ s with capture := c }, st.slot, d.addr, d.len, d.slot, rfl, ?_⟩
            dsimp only
            split
            · exact parkDescriptor_keeps _ _ _ .hold (by decide)
            · exact discardDescriptor_keeps _ _ _ _ .hold (by decide)
          · exact .inl (hclassify _ _ _ _ _)

theorem descriptorDisposition_hold (s : State) : (descriptorDisposition s).hold = s.hold ∨
    ∃ u k addr len slot, u.hold = s.hold ∧ (descriptorDisposition s).hold = (parkRequest k addr len slot u).2.hold := by
  unfold descriptorDisposition
  split
  · exact .inl rfl
  · split
    · exact .inl rfl
    · exact decide5_hold _ (dropHeld s)

theorem HandoffInv.descriptorDisposition (hs : HandoffInv s) : HandoffInv (descriptorDisposition s) := by
  refine hs.same ⟨(quiet_descriptorDisposition s).seats, fun k => ?_, fun k => ?_⟩
    ((Continues.refl s).keep (descriptorDisposition_keeps s) (by decide))
  · obtain h | ⟨u, k', a, l, x, hu, h⟩ := descriptorDisposition_hold s
    · rw [h]
    · rw [h, ← hu]; exact (parkRequest_slots k' a l x u k).1
  · obtain h | ⟨u, k', a, l, x, hu, h⟩ := descriptorDisposition_hold s
    · rw [h]
    · rw [h, ← hu]; exact (parkRequest_slots k' a l x u k).2

/-- A sample moves no station into HANDOFF or out of it. -/
theorem takeSample_seats {i : Fin 128} {st : Station} (hst : s.sta.stations[i] = some st) (raw : Byte) (j : Fin 128) :
    seat (takeSample i st raw s).sta.stations[j] = seat s.sta.stations[j] := by
  unfold takeSample
  dsimp only
  rw [offerAll_sta]
  obtain ⟨state, dwell, deadline, h, -, hstate⟩ := roamStep_moves s.sig.profiles[st.roam] s.now
    (s.after (s.sig.profiles[st.roam]).candidateTimeout) i
    { st with
      away := false, samples := satInc 65535 st.samples,
      est := some (nextEstimate st.est (clampSample raw) (s.sig.profiles[st.roam]).shift) }
    (nextEstimate st.est (clampSample raw) (s.sig.profiles[st.roam]).shift)
  rw [h]
  refine seats_put (s := { s with sig := { s.sig with samplesTaken := satInc count32 s.sig.samplesTaken } }) ?_ j
  rw [hst]
  exact Prod.ext (decide_eq_decide.2 hstate) rfl

theorem signalSample_seats (i : Nat) (s : State) (j : Fin 128) : seat (signalSample i s).sta.stations[j] = seat s.sta.stations[j] := by
  unfold signalSample
  split
  · rfl
  · split
    · rfl
    · dsimp only
      split
      · rfl
      · next st hst =>
        split
        · rfl
        · split
          · rfl
          · refine (takeSample_seats ?_ _ j).trans ?_
            · exact hst
            · rfl

theorem HandoffInv.signalSample (hs : HandoffInv s) (i : Nat) : HandoffInv (signalSample i s) := by
  have hhold : (Machine.signalSample i s).hold = s.hold := signalSample_keeps i s .hold (by decide)
  exact hs.same ⟨signalSample_seats i s, fun k => by rw [hhold], fun k => by rw [hhold]⟩ ((Continues.refl s).signalSample i)

/-! ### Every event -/

theorem HandoffInv.initial (hsta : ∀ i : Fin 128, s.sta.stations[i] = none) (hhold : ∀ k : Fin 16, s.hold.slots[k] = .free)
    (hcmd : s.cmd.executing = .idle) : HandoffInv s :=
  .idle (fun i => .inl ⟨by rw [hsta]; rfl, fun k => by rw [hhold]; exact nofun⟩) hcmd

theorem HandoffInv.exec {c : Instr} (hs : HandoffInv s) (h : exec c s = .next t) : HandoffInv t := by
  have hseat := ((handoffInv_iff s).1 hs).1
  have hreceive (wanted : Reception → Bool) (tag : Nat) (d : List Lane) : HandoffInv (receive wanted tag d s) :=
    hs.quiet (quiet_receive wanted tag d s) (by rw [receive_keeps wanted tag d s .hold (by decide)]) ((Continues.refl s).receive wanted tag d)
  have hkeep {u : State} (h : Machine.exec c s = .next u) (hb : Block.sta ∉ touched c ∧ Block.hold ∉ touched c)
      (hc : Block.cmd ∉ touched c ∨ Continues true s u) : HandoffInv u :=
    hs.keep (exec_keeps h) hb (hc.elim (fun hc => (Continues.refl s).keep (exec_keeps h) hc) id)
  cases ha : atOnceOf c with
  | some a =>
    rw [exec_atOnce ha] at h
    cases h
    refine hs.runCommand a.code fun p hidle _ => ?_
    exact .complete (atOnce_seated hseat ha p) (.inl ((a.continues p s).1.trans hidle)) _ _
  | none =>
    cases c with
    | powerOnReset =>
      cases h
      unfold powerOnReset
      split
      · exact hs
      · exact .initial (fun i => by simp [resetBlocks, StationTable.initial]) (fun k => by simp [resetBlocks, HoldUnit.initial]) rfl
    | warmReset =>
      cases h
      unfold warmReset
      split
      · exact hs
      · exact .initial (fun i => by simp [resetBlocks, StationTable.initial]) (fun k => by simp [resetBlocks, HoldUnit.initial]) rfl
    | bootRecordReadComplete resps data => exact hkeep h (of_decide_eq_true rfl) (.inr (by cases h; exact (Continues.refl s).bootReadComplete resps data))
    | upstreamWriteArrival a => exact hkeep h (of_decide_eq_true rfl) (.inr (by cases h; exact (Continues.refl s).writeArrival a))
    | upstreamWriteReceived tag d => cases h; exact hreceive _ tag d
    | frameStartWrite tag d => cases h; exact hreceive _ tag d
    | peerRecord tag d => cases h; exact hreceive _ tag d
    | commandCapture tag d => cases h; exact hreceive _ tag d
    | tailWordWrite tag d => cases h; exact hreceive _ tag d
    | stagingWriteTracked tag d => cases h; exact hreceive _ tag d
    | bootRecordCheck => exact hkeep h (of_decide_eq_true rfl) (.inr (by cases h; exact (Continues.refl s).bootRecordCheck))
    | descriptorDisposition => cases h; exact hs.descriptorDisposition
    | statusRecordDecision =>
      cases h
      exact hs.quiet (quiet_statusDecision s) (by rw [statusDecision_keeps s .hold (by decide)]) (Continues.refl s).statusDecision
    | signalSample i => cases h; exact hs.signalSample i
    | reportRecordResponse tag resp => exact hkeep h (of_decide_eq_true rfl) (.inr (by cases h; exact (Continues.refl s).reportResponse tag resp))
    | headWordResponse tag resp => exact hkeep h (of_decide_eq_true rfl) (.inr (by cases h; exact (Continues.refl s).headResponse tag resp))
    | dumpWriteResponse tag resp => cases h; exact hs.dumpResponse tag resp
    | statsWriteResponse tag resp => cases h; exact hs.statsResponse tag resp
    | sweepReadReturn tag resps data =>
      exact hkeep h (of_decide_eq_true rfl) (.inr (by cases h; exact (Continues.refl s).sweepReadReturn tag resps data))
    | candidateExpired => cases h; exact hs.visitFor _
    | holdoffExpiry => cases h; exact hs.visitFor _
    | handoffTimeout => cases h; exact hs.visitFor _
    | minuteBoundary =>
      cases h
      exact hs.quiet (quiet_minuteBoundary s) (by rw [minuteBoundary_keeps s .hold (by decide)]) (Continues.refl s).minuteBoundary
    | lineEdge =>
      cases h
      exact hs.quiet (quiet_lineEdge s) (by rw [lineEdge_keeps s .hold (by decide)]) (Continues.refl s).lineEdge
    | pacingPeriodBoundary => exact hkeep h (of_decide_eq_true rfl) (.inr (by cases h; exact (Continues.refl s).pacingBoundary))
    | unknownCommand =>
      cases h
      unfold unknownCommand
      split
      · next he _ =>
        split
        · exact hs
        · exact .complete hseat (.inl he) _ _
      · exact hs
    | stationClear =>
      cases h
      split
      · exact hs.runCommand 0x06 hs.stationClear
      · exact hs.clearStep
    | handoffEnd => cases h; exact hs.runCommand 0x1B hs.handoffEnd
    | stats => cases h; exact hs.runCommand 0x20 hs.stats
    | resetRelease pin sel => exact hkeep h (of_decide_eq_true rfl) (.inl (of_decide_eq_true rfl))
    | abandonedResponse tag => exact hkeep h (of_decide_eq_true rfl) (.inl (of_decide_eq_true rfl))
    | bootRecordReadIssue => exact hkeep h (of_decide_eq_true rfl) (.inl (of_decide_eq_true rfl))
    | upstreamReadArrival a => exact hkeep h (of_decide_eq_true rfl) (.inl (of_decide_eq_true rfl))
    | writeSideGrant => exact hkeep h (of_decide_eq_true rfl) (.inl (of_decide_eq_true rfl))
    | readSideGrant => exact hkeep h (of_decide_eq_true rfl) (.inl (of_decide_eq_true rfl))
    | downstreamResponse tag resp => exact hkeep h (of_decide_eq_true rfl) (.inl (of_decide_eq_true rfl))
    | refusedWriteResponse tag => exact hkeep h (of_decide_eq_true rfl) (.inl (of_decide_eq_true rfl))
    | sweepStart => exact hkeep h (of_decide_eq_true rfl) (.inl (of_decide_eq_true rfl))
    | uptimeSecond => exact hkeep h (of_decide_eq_true rfl) (.inl (of_decide_eq_true rfl))
    | flowAging => exact hkeep h (of_decide_eq_true rfl) (.inl (of_decide_eq_true rfl))
    | tick lineIn => exact hkeep h (of_decide_eq_true rfl) (.inl (of_decide_eq_true rfl))
    | _ => exact absurd ha nofun

end Handoffs

end Sys2Proof.Machine

/-! SUPPORT. The hold pool is exact (R131): `HoldInv.exec`, and the obligation O59. -/

namespace Sys2Proof.Machine

open Sys2Proof

section Pool

variable {s t : State}

/-! ### The references of all slots -/

theorem sum_map_set {α : Type} (f : α → Nat) (l : List α) (i : Nat) (hi : i < l.length) (x : α) :
    ((l.set i x).map f).sum + f l[i] = (l.map f).sum + f x := by
  induction l generalizing i with
  | nil => exact absurd hi (Nat.not_lt_zero i)
  | cons a l ih =>
    cases i with
    | zero =>
      simp only [List.set_cons_zero, List.map_cons, List.sum_cons, List.getElem_cons_zero]
      omega
    | succ i =>
      have := ih i (Nat.lt_of_succ_lt_succ hi)
      simp only [List.set_cons_succ, List.map_cons, List.sum_cons, List.getElem_cons_succ]
      omega

/-- The references on all hold lists. -/
def listedRefs (v : Vector HandoffSlot 16) : Nat := (v.toList.map HandoffSlot.held).sum

theorem listedRefs_vput (v : Vector HandoffSlot 16) (k : Fin 16) (x : HandoffSlot) :
    listedRefs (vput v k x) + (v[k]).held = listedRefs v + x.held := by
  have hset : (vput v k x).toList = v.toList.set k.val x := Vector.toList_set ..
  rw [listedRefs, hset]
  exact sum_map_set HandoffSlot.held v.toList k.val (by simp) x

theorem listedRefs_le {v : Vector HandoffSlot 16} (h : ∀ k : Fin 16, (v[k]).held ≤ 32) : listedRefs v ≤ 512 := by
  have hle := List.sum_le_card_nsmul (v.toList.map HandoffSlot.held) 32 fun n hn => by
    obtain ⟨x, hx, rfl⟩ := List.mem_map.1 hn
    obtain ⟨j, hj, rfl⟩ := List.mem_iff_getElem.1 hx
    have hj' : j < 16 := by simpa using hj
    exact h ⟨j, hj'⟩
  simpa [listedRefs] using hle

theorem holdInv_iff (s : State) : HoldInv s ↔ (∀ k : Fin 16, (s.hold.slots[k]).held ≤ 32) ∧ s.hold.free + listedRefs s.hold.slots = 512 := Iff.rfl

theorem HoldInv.same (hs : HoldInv s) (hslots : t.hold.slots = s.hold.slots) (hfree : t.hold.free = s.hold.free) : HoldInv t := by
  rw [holdInv_iff] at hs ⊢
  rw [hslots, hfree]
  exact hs

theorem HoldInv.keep {bs : List Block} (hs : HoldInv s) (h : KeepsAllBut bs s t) (hb : Block.hold ∉ bs) : HoldInv t := by
  have hh : t.hold = s.hold := h .hold hb
  exact hs.same (by rw [hh]) (by rw [hh])

/-- A slot written with the pool brought up. -/
theorem HoldInv.put (hs : HoldInv s) {k : Fin 16} {x : HandoffSlot} (hslots : t.hold.slots = vput s.hold.slots k x) (hx : x.held ≤ 32)
    (hfree : t.hold.free + x.held = s.hold.free + (s.hold.slots[k]).held) : HoldInv t := by
  rw [holdInv_iff] at hs ⊢
  obtain ⟨hlimit, hpool⟩ := hs
  have hsum := listedRefs_vput s.hold.slots k x
  rw [hslots]
  refine ⟨fun j => ?_, by omega⟩
  rw [vput_at]
  split
  · exact hx
  · exact hlimit j

/-- A slot without references written by one without. -/
theorem HoldInv.putSlot (hs : HoldInv s) {k : Fin 16} {x : HandoffSlot} (hk : (s.hold.slots[k]).held = 0) (hx : x.held = 0) :
    HoldInv (putSlot k x s) := hs.put rfl (by omega) (by rw [hk, hx]; rfl)

/-! ### Parking (R132) -/

/-- A list below its limit leaves a place in the pool. -/
theorem HoldInv.placeLeft (hs : HoldInv s) {k : Fin 16} {o : Occupied} (hk : s.hold.slots[k] = .occupied o) (hlt : o.list.length < 32) :
    1 ≤ s.hold.free := by
  rw [holdInv_iff] at hs
  obtain ⟨hlimit, hpool⟩ := hs
  have hheld : (s.hold.slots[k]).held = o.list.length := by rw [hk]; rfl
  let o' : Occupied := { o with list := o.list ++ [⟨0, 0, 0, 0⟩] }
  have hheld' : (HandoffSlot.occupied o').held = o.list.length + 1 := by simp [HandoffSlot.held, o']
  have hsum := listedRefs_vput s.hold.slots k (.occupied o')
  have hle : listedRefs (vput s.hold.slots k (.occupied o')) ≤ 512 := listedRefs_le fun j => by
    rw [vput_at]
    split
    · omega
    · exact hlimit j
  omega

theorem HoldInv.parkRequest (hs : HoldInv s) (k : Option (Fin 16)) (addr len : Nat) (slot : Fin 16) :
    HoldInv (parkRequest k addr len slot s).2 := by
  unfold Machine.parkRequest
  split
  · exact hs
  · next k =>
    split
    · next o ho =>
      have hheld : (s.hold.slots[k]).held = o.list.length := by rw [ho]; rfl
      have hlimit := ((holdInv_iff s).1 hs).1 k
      unfold parkIn
      dsimp only
      by_cases hlt : o.list.length < Config.holdLimit
      · have hplace := hs.placeLeft ho hlt
        simp only [if_pos hlt, if_true]
        refine hs.put (k := k) rfl ?_ ?_
        · simp only [HandoffSlot.held, List.length_append, List.length_singleton]
          exact hlt
        · rw [hheld]
          simp only [HandoffSlot.held, List.length_append, List.length_singleton]
          change s.hold.free - 1 + (o.list.length + 1) = s.hold.free + o.list.length
          omega
      · simp only [if_neg hlt, Bool.false_eq_true, if_false]
        refine hs.put (k := k) rfl ?_ ?_
        · exact (show o.list.length ≤ 32 from hheld ▸ hlimit)
        · exact congrArg (s.hold.free + ·) hheld.symm
    · exact hs
    · exact hs

theorem HoldInv.descriptorDisposition (hs : HoldInv s) : HoldInv (descriptorDisposition s) := by
  obtain h | ⟨u, k, a, l, x, hu, h⟩ := descriptorDisposition_hold s
  · exact hs.same (by rw [h]) (by rw [h])
  · exact (HoldInv.parkRequest (hs.same (t := u) (by rw [hu]) (by rw [hu])) k a l x).same (by rw [h]) (by rw [h])

/-! ### Releases (R135, R137, R138) -/

theorem countRelease_free (outcome : HandoffOutcome) (h : HoldUnit) : (countRelease outcome h).free = h.free := by cases outcome <;> rfl

theorem HoldInv.releaseTaken (hs : HoldInv s) (outcome : HandoffOutcome) (i : Fin 128) (st : Station) {k : Fin 16} {o : Occupied}
    (hk : s.hold.slots[k] = .occupied o) : HoldInv (releaseTaken outcome i st k o s) := by
  refine hs.put (releaseTaken_slots outcome i st k o s) (Nat.zero_le _) ?_
  rw [hk]
  exact countRelease_free outcome _

theorem HoldInv.finishDump (hs : HoldInv s) {k : Fin 16} (hk : (s.hold.slots[k]).held = 0) (d : Dumping) : HoldInv (finishDump k d s) := by
  have hhold := (finishDump_tables k d s).2
  refine hs.put (k := k) (x := .free) (by rw [hhold]) (Nat.zero_le _) ?_
  rw [hhold, hk]
  rfl

theorem HoldInv.takeRelease (hs : HoldInv s) (outcome : HandoffOutcome) (i : Fin 128) (st : Station) {k : Fin 16} {o : Occupied}
    (hk : s.hold.slots[k] = .occupied o) : HoldInv (takeRelease outcome i st k o s) := by
  have hrequested := (hs.releaseTaken outcome i st hk).keep (requestDump_keeps k (dumpOf outcome st o).buffer _) (by decide)
  rw [takeRelease_eq]
  split
  · refine hrequested.finishDump ?_ _
    rw [requestDump_keeps k _ _ .hold (by decide), releaseTaken_slots, vput_same]
    rfl
  · exact hrequested

theorem HoldInv.visitStation (hs : HoldInv s) (i : Fin 128) : HoldInv (visitStation i s) := by
  unfold Machine.visitStation
  split
  · exact hs
  · split
    · split
      · exact hs.keep (.append (keeps_sta _ s) (offer_keeps _ _)) (by decide)
      · exact hs.keep (keeps_sta _ s) (by decide)
      · split
        · exact hs
        · next k o ho => exact hs.takeRelease _ _ _ (handoffOf_eq_some ho).2.2
      · exact hs
      · exact hs
    · exact hs

theorem HoldInv.visitFor (hs : HoldInv s) (state : Roam) : HoldInv (visitFor state s) := by
  unfold Machine.visitFor
  split
  · unfold visitStations
    dsimp only
    have hok := foldl_invariant (inv := HoldInv) (fun _ i h => HoldInv.visitStation h i) (List.finRange 128) hs
    generalize (List.finRange 128).foldl (fun s i => Machine.visitStation i s) s = u at hok ⊢
    exact hok.keep (keeps_time _ u) (by decide)
  · exact hs

theorem HoldInv.dumpResponse (hs : HoldInv s) (tag : Nat) (resp : Resp) : HoldInv (dumpResponse tag resp s) := by
  unfold Machine.dumpResponse
  split
  · next k hk =>
    split
    · next d hd =>
      have hheld : (s.hold.slots[k]).held = 0 := by rw [hd]; rfl
      have hcounted : HoldInv (if resp = .okay then dropOwn tag s else
          { dropOwn tag s with hold := { s.hold with dumpFaults := satInc count32 s.hold.dumpFaults } }) ∧
          ((if resp = .okay then dropOwn tag s else
          { dropOwn tag s with hold := { s.hold with dumpFaults := satInc count32 s.hold.dumpFaults } }).hold.slots[k]).held = 0 := by
        split
        · exact ⟨hs.same rfl rfl, hheld⟩
        · exact ⟨hs.same rfl rfl, hheld⟩
      obtain ⟨hcounted, hheld'⟩ := hcounted
      dsimp only
      split
      · exact hcounted.finishDump hheld' _
      · exact hcounted.putSlot hheld' rfl
    · exact hs
    · exact hs
  · exact hs

/-! ### Commands -/

theorem HoldInv.runCommand (hs : HoldInv s) (code : Nat) {owner : List Byte → State → State} (h : ∀ p, HoldInv (owner p s)) :
    HoldInv (runCommand code owner s) := by
  obtain he | ⟨-, -, c, -, -, he | he⟩ := runCommand_cases code owner s <;> rw [he]
  · exact hs
  · exact hs.keep (completeCommand_keeps _ _ s) (by decide)
  · exact h _

theorem HoldInv.stationClear (hs : HoldInv s) (p : List Byte) : HoldInv (stationClear p s) := by
  unfold Machine.stationClear
  split
  · exact hs.keep (completeCommand_keeps _ _ s) (by decide)
  · split
    · exact hs.keep (completeCommand_keeps _ _ s) (by decide)
    · split
      · next k o ho => exact (hs.keep (setExecuting_keeps _ s) (by decide)).takeRelease _ _ _ (handoffOf_eq_some ho).2.2
      · exact hs.keep (clearFlows_keeps _ s) (by decide)

theorem HoldInv.handoffEnd (hs : HoldInv s) (p : List Byte) : HoldInv (handoffEnd p s) := by
  unfold Machine.handoffEnd
  split
  · split
    · exact hs.keep (completeCommand_keeps _ _ s) (by decide)
    · split
      · exact hs.keep (completeCommand_keeps _ _ s) (by decide)
      · next k o ho => exact (hs.keep (setExecuting_keeps _ s) (by decide)).takeRelease _ _ _ (handoffOf_eq_some ho).2.2
  · exact hs.keep (completeCommand_keeps _ _ s) (by decide)

theorem clearStep_hold (s : State) : (clearStep s).hold = s.hold := by
  unfold clearStep
  split
  · split <;> rfl
  · split
    · rfl
    · rw [completeCommand_hold]; rfl
  all_goals rfl

theorem HoldInv.handoffBegin (hs : HoldInv s) (p : List Byte) : HoldInv (handoffBegin p s).state := by
  unfold Machine.handoffBegin
  split
  · split
    · exact hs
    · split
      · exact hs
      · split
        · exact hs
        · split
          · exact hs
          · next k hk =>
            exact HoldInv.keep (hs.putSlot (k := k) (x := .occupied _) (by rw [freeSlot_holder hk]; rfl) rfl) (keeps_sta _ _) (by decide)
  · exact hs

theorem clearSection_hold (sec : Nat) (s : State) :
    (clearSection sec s).hold.slots = s.hold.slots ∧ (clearSection sec s).hold.free = s.hold.free := by
  unfold clearSection
  split
  · exact ⟨rfl, rfl⟩
  · split
    · exact ⟨rfl, rfl⟩
    · split
      · exact ⟨rfl, rfl⟩
      · have hkeep : KeepsAllBut [.sta] s (clearStations sec s) := foldl_keeps (fun u i => keeps_sta _ u) _ s
        exact ⟨by rw [hkeep .hold (by decide)], by rw [hkeep .hold (by decide)]⟩

theorem HoldInv.stats (hs : HoldInv s) (p : List Byte) : HoldInv (stats p s) := by
  have hrequests (ws : List OwnWrite) (u : State) : KeepsAllBut [.own] u (ws.foldl (fun s w => request w s) u) :=
    foldl_keeps (fun u w => keeps_own _ u) ws u
  have hclear (clear : Bool) {u : State} (hu : HoldInv u) : HoldInv (if clear then clearSection (param1 p 0) u else u) := by
    split
    · exact hu.same (clearSection_hold _ u).1 (clearSection_hold _ u).2
    · exact hu
  unfold Machine.stats
  split
  · exact hs.keep (completeCommand_keeps _ _ s) (by decide)
  · split
    · exact ((hclear _ (hs.keep (keeps_free _ s) (by decide))).keep (hrequests _ _) (by decide)).keep (setExecuting_keeps _ _) (by decide)
    · exact hs.keep (completeCommand_keeps _ _ s) (by decide)

/-! ### Every event -/

theorem holdInv_initial (h : s.hold = HoldUnit.initial) : HoldInv s := by
  rw [holdInv_iff, h]
  decide

theorem HoldInv.exec {c : Instr} (hs : HoldInv s) (h : exec c s = .next t) : HoldInv t := by
  by_cases hb : Block.hold ∈ touched c
  · cases c with
    | powerOnReset =>
      cases h
      unfold powerOnReset
      split
      · exact hs
      · exact holdInv_initial rfl
    | warmReset =>
      cases h
      unfold warmReset
      split
      · exact hs
      · exact holdInv_initial rfl
    | descriptorDisposition => cases h; exact hs.descriptorDisposition
    | dumpWriteResponse tag resp => cases h; exact hs.dumpResponse tag resp
    | candidateExpired => cases h; exact hs.visitFor _
    | holdoffExpiry => cases h; exact hs.visitFor _
    | handoffTimeout => cases h; exact hs.visitFor _
    | handoffBegin =>
      cases h
      exact hs.runCommand 0x19 fun p => (hs.handoffBegin p).keep (completeCommand_keeps _ _ _) (by decide)
    | stationClear =>
      cases h
      split
      · exact hs.runCommand 0x06 hs.stationClear
      · exact hs.same (by rw [clearStep_hold]) (by rw [clearStep_hold])
    | handoffEnd => cases h; exact hs.runCommand 0x1B hs.handoffEnd
    | stats => cases h; exact hs.runCommand 0x20 hs.stats
    | _ => exact absurd hb (of_decide_eq_false rfl)
  · exact hs.keep (exec_keeps h) hb

end Pool

/-- Settles O59: `StationInv`, `HandoffInv` and `HoldInv` are each kept by every event, by what the events do to the records, to the pairs
of a station's seat and its slot (`Seated`), and to the pool. -/
theorem everyStepKeepsStationsAndHolding : Obligations.EveryStepKeepsStationsAndHolding :=
  ⟨step_keeps_of_exec (fun _ _ hs => hs.quiet (.same rfl) rfl) fun _ _ _ hs h => hs.exec h,
    step_keeps_of_exec (fun s _ hs => hs.quiet (.same rfl) rfl ((Continues.refl s).same rfl rfl)) fun _ _ _ hs h => hs.exec h,
    step_keeps_of_exec (fun _ _ hs => hs.same rfl rfl) fun _ _ _ hs h => hs.exec h⟩

end Sys2Proof.Machine

/-! SUPPORT. The write lists, W and the handles (R4, R15): `PathInv` under every event that moves writes. -/

namespace Sys2Proof.Machine

open Sys2Proof

/-! ### Places in the lists -/

/-- The write takes one of the 16 places: it is listed, or a place is kept for it. -/
def WriteTx.taken (w : WriteTx) : Bool := w.listed || w.reserved

theorem taken_iff {w : WriteTx} : w.taken = true ↔ w.listed = true ∨ w.reserved = true := Bool.or_eq_true_iff

/-- What `PathInv` says of the writes inside the part, with the next handle. -/
structure WritesOk (ws : List WriteTx) (next : Nat) : Prop where
  count  : ws.countP WriteTx.taken ≤ 16
  tags   : (ws.map WriteTx.tag).Nodup
  fresh  : ∀ w ∈ ws, w.tag < next
  places : ∀ w ∈ ws, w.undecided = true → w.taken = true

theorem pathInv_iff (s : State) : PathInv s ↔ WritesOk s.path.writes s.path.nextTag ∧ s.path.sweepWait ≤ 64 := by
  constructor
  · rintro ⟨hc, hw, ht, hf, hp⟩
    exact ⟨⟨hc, ht, hf, fun w hw hu => taken_iff.2 (hp w hw hu)⟩, hw⟩
  · rintro ⟨⟨hc, ht, hf, hp⟩, hw⟩
    exact ⟨hc, hw, ht, hf, fun w hw hu => taken_iff.1 (hp w hw hu)⟩

/-- A write changed: its handle stays, it takes a place only if it took one, and as an undecided one it goes on taking its place. -/
structure Moved (w v : WriteTx) : Prop where
  tag    : v.tag = w.tag
  taken  : v.taken = true → w.taken = true
  places : v.undecided = true → w.undecided = true ∧ (w.taken = true → v.taken = true)

theorem Moved.refl (w : WriteTx) : Moved w w := ⟨rfl, id, fun h => ⟨h, id⟩⟩

/-- A write that needs no decision any more. -/
theorem Moved.decided {w v : WriteTx} (ht : v.tag = w.tag) (h : v.taken = true → w.taken = true) (hu : v.undecided = false) : Moved w v :=
  ⟨ht, h, fun h' => absurd (hu.symm.trans h') Bool.false_ne_true⟩

theorem WritesOk.moved {ws vs : List WriteTx} {n : Nat} (h : WritesOk ws n) (hm : List.Forall₂ Moved ws vs) : WritesOk vs n := by
  have htags : vs.map WriteTx.tag = ws.map WriteTx.tag := by
    induction hm with
    | nil => rfl
    | cons hm _ ih =>
      obtain ⟨hc, ht, hf, hp⟩ := h
      rw [List.map_cons, List.map_cons, hm.tag]
      congr 1
      refine ih ⟨(List.countP_cons ..).symm ▸ Nat.le_add_right _ _ |>.trans hc, (List.nodup_cons.1 ht).2,
        fun w hw => hf w (List.mem_cons_of_mem _ hw), fun w hw => hp w (List.mem_cons_of_mem _ hw)⟩
  have hcount : vs.countP WriteTx.taken ≤ ws.countP WriteTx.taken := by
    clear htags h
    induction hm with
    | nil => exact le_rfl
    | cons hm _ ih =>
      rw [List.countP_cons, List.countP_cons]
      refine Nat.add_le_add ih ?_
      split
      · next hv => rw [if_pos (hm.taken hv)]
      · exact Nat.zero_le _
  have horigin {v : WriteTx} (hv : v ∈ vs) : ∃ w ∈ ws, Moved w v := by
    clear htags hcount h
    induction hm with
    | nil => cases hv
    | cons hm _ ih =>
      obtain rfl | hv := List.mem_cons.1 hv
      · exact ⟨_, List.mem_cons_self, hm⟩
      · obtain ⟨w, hw, hm⟩ := ih hv
        exact ⟨w, List.mem_cons_of_mem _ hw, hm⟩
  refine ⟨hcount.trans h.count, htags ▸ h.tags, fun v hv => ?_, fun v hv hu => ?_⟩
  · obtain ⟨w, hw, hm⟩ := horigin hv
    exact hm.tag ▸ h.fresh w hw
  · obtain ⟨w, hw, hm⟩ := horigin hv
    obtain ⟨hu', ht⟩ := hm.places hu
    exact ht (h.places w hw hu')

theorem WritesOk.sublist {ws vs : List WriteTx} {n : Nat} (h : WritesOk ws n) (hs : vs.Sublist ws) : WritesOk vs n :=
  ⟨(hs.countP_le).trans h.count, h.tags.sublist (hs.map _), fun w hw => h.fresh w (hs.subset hw), fun w hw => h.places w (hs.subset hw)⟩

theorem WritesOk.mono {ws : List WriteTx} {n m : Nat} (h : WritesOk ws n) (hn : n ≤ m) : WritesOk ws m :=
  ⟨h.count, h.tags, fun w hw => (h.fresh w hw).trans_le hn, h.places⟩

theorem writesOk_nil (n : Nat) : WritesOk [] n :=
  ⟨Nat.zero_le _, List.nodup_nil, fun _ h => absurd h List.not_mem_nil, fun _ h => absurd h List.not_mem_nil⟩

/-- A write that arrives while a place is left, under a fresh handle. -/
theorem WritesOk.arrive {ws : List WriteTx} {n : Nat} (h : WritesOk ws n) (hc : ws.countP WriteTx.taken < 16) {w : WriteTx} (ht : w.tag = n)
    (hp : w.undecided = true → w.taken = true) : WritesOk (ws ++ [w]) (n + 1) := by
  refine ⟨?_, ?_, fun v hv => ?_, fun v hv => ?_⟩
  · rw [List.countP_append]
    have : List.countP WriteTx.taken [w] ≤ 1 := List.countP_le_length
    omega
  · rw [List.map_append, List.map_singleton]
    refine List.nodup_append.2 ⟨h.tags, List.nodup_singleton _, fun a ha b hb => ?_⟩
    obtain ⟨v, hv, rfl⟩ := List.mem_map.1 ha
    have := h.fresh v hv
    rw [List.mem_singleton.1 hb, ht]
    omega
  · obtain hv | hv := List.mem_append.1 hv
    · exact (h.fresh v hv).trans (Nat.lt_succ_self n)
    · rw [List.mem_singleton.1 hv, ht]
      exact Nat.lt_succ_self n
  · obtain hv | hv := List.mem_append.1 hv
    · exact h.places v hv
    · exact List.mem_singleton.1 hv ▸ hp

/-! ### Settling -/

theorem settleWrite_moved (ahead : List WriteTx) (w : WriteTx) : Moved w (settleWrite ahead w) := by
  have hund : (settleWrite ahead w).undecided = w.undecided := by
    rw [WriteTx.undecided, settleWrite_stage, settleWrite_win, settleWrite_txn]
    rfl
  refine ⟨settleWrite_tag ahead w, fun h => ?_, fun hu => ⟨hund.symm.trans hu, fun h => ?_⟩⟩
  · unfold settleWrite at h
    split at h
    · next hr => exact taken_iff.2 (.inr hr)
    · split at h
      · next hl => exact taken_iff.2 (.inl (Bool.and_eq_true_iff.1 (Bool.and_eq_true_iff.1 hl).1).1)
      · exact h
  · rw [hund] at hu
    unfold settleWrite
    split
    · split
      · rfl
      · exact taken_iff.2 (.inr (by simp only [hu, Bool.true_or]))
    · split
      · next hl =>
        have hrefused := (Bool.and_eq_true_iff.1 (Bool.and_eq_true_iff.1 hl).1).2
        have harriving := (Bool.and_eq_true_iff.1 hu).1
        rw [WriteTx.isRefused, beq_iff_eq.1 harriving] at hrefused
        cases hrefused
      · exact h

theorem settleFrom_moved (older ws : List WriteTx) : List.Forall₂ Moved ws (settleFrom older ws) := by
  induction ws generalizing older with
  | nil => exact .nil
  | cons w ws ih => exact .cons (settleWrite_moved _ w) (ih _)

/-! ### Moves of the path -/

/-- What an event does to the path keeps the invariant, and brings no write inside. -/
structure PathMoves (s t : State) : Prop where
  inv   : PathInv s → PathInv t
  empty : s.path.writes = [] → t.path.writes = []

section Moves

variable {s t u : State}

theorem PathMoves.refl (s : State) : PathMoves s s := ⟨id, id⟩

theorem PathMoves.trans (h : PathMoves s t) (h' : PathMoves t u) : PathMoves s u := ⟨fun hs => h'.inv (h.inv hs), fun hs => h'.empty (h.empty hs)⟩

theorem PathMoves.same (hw : t.path.writes = s.path.writes) (hn : s.path.nextTag ≤ t.path.nextTag)
    (hk : s.path.sweepWait ≤ 64 → t.path.sweepWait ≤ 64) : PathMoves s t := by
  refine ⟨fun hs => ?_, fun hs => hw.trans hs⟩
  rw [pathInv_iff] at hs ⊢
  exact ⟨hw ▸ hs.1.mono hn, hk hs.2⟩

theorem PathMoves.keep {bs : List Block} (h : KeepsAllBut bs s t) (hb : Block.path ∉ bs) : PathMoves s t := by
  have hp : t.path = s.path := h .path hb
  exact .same (by rw [hp]) (by rw [hp]) (by rw [hp]; exact id)

/-- Writes changed in place. -/
theorem PathMoves.moved (hn : t.path.nextTag = s.path.nextTag) (hk : t.path.sweepWait = s.path.sweepWait)
    (h : WritesOk s.path.writes s.path.nextTag → List.Forall₂ Moved s.path.writes t.path.writes)
    (hl : t.path.writes.length = s.path.writes.length) : PathMoves s t := by
  refine ⟨fun hs => ?_, fun hs => ?_⟩
  · rw [pathInv_iff] at hs ⊢
    rw [hn, hk]
    exact ⟨hs.1.moved (h hs.1), hs.2⟩
  · rw [hs] at hl
    exact List.eq_nil_of_length_eq_zero hl

theorem settleLists_moves (s : State) : PathMoves s (settleLists s) :=
  .moved rfl rfl (fun _ => settleFrom_moved [] _) (settleFrom_length _ _)

theorem modWrite_moves {tag : Nat} {f : WriteTx → WriteTx} (s : State) (h : ∀ w ∈ s.path.writes, w.tag = tag → Moved w (f w)) :
    PathMoves s (modWrite tag f s) := by
  refine .moved rfl rfl (fun _ => ?_) (List.length_map ..)
  refine List.forall₂_map_right_iff.2 (List.forall₂_same.2 fun w hw => ?_)
  split
  · next ht => exact h w hw ht
  · exact .refl w

theorem storeData_moves (tag : Nat) (d : List Lane) (s : State) : PathMoves s (storeData tag d s) :=
  modWrite_moves s fun _ _ _ => ⟨rfl, id, fun h => ⟨h, id⟩⟩

theorem release_moves (tag : Nat) (s : State) : PathMoves s (release tag s) :=
  .trans (modWrite_moves (tag := tag) (f := fun w => { w with stage := .ready }) s fun _ _ _ => .decided rfl id rfl) (.same rfl le_rfl id)

theorem refuseWrite_moves (tag : Nat) (s : State) : PathMoves s (refuseWrite tag s) :=
  .trans (modWrite_moves (tag := tag) (f := fun w => { w with stage := .refused true, data := [] }) s fun _ _ _ => .decided rfl id rfl)
    (settleLists_moves _)

theorem passWrite_moves (tag : Nat) (d : List Lane) (s : State) : PathMoves s (passWrite tag d s) :=
  (storeData_moves tag d s).trans ((release_moves tag _).trans (settleLists_moves _))

theorem releaseRewritten_moves (tag : Nat) (bytes : List Byte) (s : State) : PathMoves s (releaseRewritten tag bytes s) :=
  .trans (modWrite_moves (tag := tag) (f := fun w => { w with data := withBytes w.data bytes }) s fun _ _ _ => ⟨rfl, id, fun h => ⟨h, id⟩⟩)
    (release_moves tag _)

/-- A write that is held was undecided, so it took a place. -/
theorem hold_moves {s : State} {w : WriteTx} (hw : findWrite s.path w.tag = some w) (hu : w.undecided = true) (d : List Lane) :
    PathMoves s (Machine.hold w.tag (storeData w.tag d s)) := by
  refine .trans (t := modWrite w.tag (fun v => { v with stage := .held, listed := true, reserved := false }) (storeData w.tag d s))
    ?_ (settleLists_moves _)
  refine .moved rfl rfl (fun hok => ?_) (by rw [modWrite, storeData, modWrite, List.length_map, List.length_map])
  simp only [modWrite, storeData, List.map_map]
  refine List.forall₂_map_right_iff.2 (List.forall₂_same.2 fun v hv => ?_)
  by_cases ht : v.tag = w.tag
  · have hv' : v = w := List.inj_on_of_nodup_map hok.tags hv (findWrite_eq_some hw).1 ht
    subst hv'
    simp only [Function.comp, if_true]
    exact .decided rfl (fun _ => hok.places v hv hu) rfl
  · simp only [Function.comp, if_neg ht]
    exact .refl v

/-! ### Receptions -/

theorem awaited_eq_some {tag : Nat} {d : List Lane} {s : State} {w : WriteTx} (h : awaited tag d s = some w) :
    findWrite s.path tag = some w ∧ (w.stage = .arriving ∨ w.stage = .refused false) := by
  unfold awaited at h
  split at h
  · cases h
  · split at h
    · next hw => cases h; exact ⟨‹_›, hw.1⟩
    · cases h

/-- What a reception that is held has shown: the write was undecided. -/
theorem undecided_of_mayHold {w : WriteTx} (hst : w.stage = .arriving ∨ w.stage = .refused false)
    (hr : w.isRefused = false) (h : mayHold w.win w.txn = true) : w.undecided = true := by
  have hstage : w.stage = .arriving := hst.resolve_right fun h' => by rw [WriteTx.isRefused, h'] at hr; cases hr
  rw [WriteTx.undecided, hstage, h]
  rfl

end Moves

end Sys2Proof.Machine

/-! SUPPORT. The path under receptions, grants, responses and the end of a command (R2 to R6, R14, R15): `PathMoves`, and `PathInv.exec`. -/

namespace Sys2Proof.Machine

open Sys2Proof

section Moves

variable {s t u : State}

/-! ### Receptions -/

theorem receptionOf_notRefused {img : ImageUnit} {w : WriteTx} {d : List Lane} (h : receptionOf img w d ≠ .refusal) : w.isRefused = false := by
  unfold receptionOf at h
  split at h
  · exact absurd rfl h
  · next hr => exact Bool.not_eq_true _ ▸ hr

theorem receptionOf_record {img : ImageUnit} {w : WriteTx} {d : List Lane} (h : receptionOf img w d = .record) :
    inSector w.txn.addr.toNat = true := by
  unfold receptionOf at h
  split at h
  · cases h
  · split at h
    · assumption
    · split at h
      · cases h
      · split at h
        · cases h
        · unfold windowReception at h
          split at h
          any_goals cases h
          · split at h <;> cases h
          · split at h <;> cases h
          · unfold controlReception at h
            repeat' split at h
            all_goals cases h

/-- A reception by a window's kind shows the window. -/
theorem receptionOf_inWindow {img : ImageUnit} {w : WriteTx} {d : List Lane} {kind : Reception} (h : receptionOf img w d = kind)
    (hk : kind ≠ .refusal ∧ kind ≠ .record ∧ kind ≠ .staging ∧ kind ≠ .plain) : ∃ c, w.win = some c ∧ windowReception c w.txn d = kind := by
  obtain ⟨hrefusal, hrecord, hstaging, hplain⟩ := hk
  unfold receptionOf at h
  split at h
  · exact absurd h.symm hrefusal
  · split at h
    · exact absurd h.symm hrecord
    · split at h
      · exact absurd h.symm hstaging
      · split at h
        · exact absurd h.symm hplain
        · next c hc => exact ⟨c, hc, h⟩

theorem controlReception_held {base : Nat} {t : TxnAddr} {d : List Lane} :
    controlReception base t d ≠ .descriptor ∧ controlReception base t d ≠ .status ∧
      (controlReception base t d = .command → complete base Config.commandAreaSize 32 t d = true) := by
  unfold controlReception
  split
  · exact ⟨nofun, nofun, fun _ => ‹_›⟩
  · split
    · exact ⟨nofun, nofun, nofun⟩
    · split <;> exact ⟨nofun, nofun, nofun⟩

theorem windowReception_kind {c : WinCopy} {t : TxnAddr} {d : List Lane} :
    (windowReception c t d = .descriptor → c.record.kind = .txRing) ∧ (windowReception c t d = .status → c.record.kind = .rxStatus) ∧
      (windowReception c t d = .command → c.record.kind = .control ∧ complete c.record.base Config.commandAreaSize 32 t d = true) := by
  obtain ⟨hd, hs, hcmd⟩ := controlReception_held (base := c.record.base) (t := t) (d := d)
  unfold windowReception
  split
  · exact ⟨fun _ => ‹_›, nofun, nofun⟩
  · exact ⟨nofun, fun _ => ‹_›, nofun⟩
  · split <;> exact ⟨nofun, nofun, nofun⟩
  · split <;> exact ⟨nofun, nofun, nofun⟩
  · exact ⟨fun h => absurd h hd, fun h => absurd h hs, fun h => ⟨‹_›, hcmd h⟩⟩
  · exact ⟨nofun, nofun, nofun⟩
  · exact ⟨nofun, nofun, nofun⟩

/-- A write complete for a record of the range its window divides may be held. -/
theorem mayHold_of_complete {w : WriteTx} {c : WinCopy} {base size rec : Nat} {d : List Lane} (hc : w.win = some c)
    (hr : heldRecords c = some (base, size, rec)) (h : complete base size rec w.txn d = true) : mayHold w.win w.txn = true := by
  rw [mayHold, hc, Option.bind_some, hr]
  exact Bool.or_eq_true_iff.2 (.inr (Bool.and_eq_true_iff.1 h).1)

section Reception

variable {w : WriteTx} {d : List Lane} (hw : findWrite s.path w.tag = some w) (hst : w.stage = .arriving ∨ w.stage = .refused false)

include hw hst

theorem receiveRecord_moves (hk : receptionOf s.img w d = .record) : PathMoves s (receiveRecord w d s) := by
  have hmay : mayHold w.win w.txn = true := by
    rw [mayHold, receptionOf_record hk]
    rfl
  have hu := undecided_of_mayHold hst (receptionOf_notRefused (by rw [hk]; exact nofun)) hmay
  unfold receiveRecord
  split
  · exact (hold_moves hw hu d).trans (.keep (keeps_img _ _) (by decide))
  · exact (refuseWrite_moves w.tag s).trans ((PathMoves.keep (keeps_img _ _) (by decide)).trans (.keep (offer_keeps _ _) (by decide)))

theorem holdForRewriter_moves (hr : w.isRefused = false) (hm : mayHold w.win w.txn = true) : PathMoves s (holdForRewriter w.tag d s) :=
  (hold_moves hw (undecided_of_mayHold hst hr hm) d).trans (.keep (keeps_rew _ _) (by decide))

theorem receiveDescriptor_moves (hk : receptionOf s.img w d = .descriptor) : PathMoves s (receiveDescriptor w d s) := by
  obtain ⟨c, hc, hwin⟩ := receptionOf_inWindow hk ⟨nofun, nofun, nofun, nofun⟩
  have hkind := windowReception_kind.1 hwin
  unfold receiveDescriptor
  rw [hc]
  dsimp only
  split
  · next p hp =>
    split
    · next hcomplete =>
      split
      · exact holdForRewriter_moves hw hst (receptionOf_notRefused (by rw [hk]; exact nofun))
          (mayHold_of_complete hc (by rw [heldRecords, hkind, hp]) hcomplete)
      · exact passWrite_moves ..
    · exact .trans (.keep (modCounts_keeps _ _ s) (by decide)) (passWrite_moves ..)
  · exact passWrite_moves ..
  · exact passWrite_moves ..

theorem receiveStatus_moves (hk : receptionOf s.img w d = .status) : PathMoves s (receiveStatus w d s) := by
  obtain ⟨c, hc, hwin⟩ := receptionOf_inWindow hk ⟨nofun, nofun, nofun, nofun⟩
  have hkind := windowReception_kind.2.1 hwin
  unfold receiveStatus
  rw [hc]
  dsimp only
  split
  · next p hp =>
    split
    · next hcomplete =>
      split
      · exact holdForRewriter_moves hw hst (receptionOf_notRefused (by rw [hk]; exact nofun))
          (mayHold_of_complete hc (by rw [heldRecords, hkind, hp]) hcomplete)
      · exact passWrite_moves ..
    · exact .trans (.keep (modCounts_keeps _ _ s) (by decide)) (passWrite_moves ..)
  · exact passWrite_moves ..
  · exact passWrite_moves ..

theorem receiveCommand_moves (hk : receptionOf s.img w d = .command) : PathMoves s (receiveCommand w d s) := by
  obtain ⟨c, hc, hwin⟩ := receptionOf_inWindow hk ⟨nofun, nofun, nofun, nofun⟩
  obtain ⟨hkind, hcomplete⟩ := windowReception_kind.2.2 hwin
  have hu := undecided_of_mayHold hst (receptionOf_notRefused (by rw [hk]; exact nofun))
    (mayHold_of_complete hc (by rw [heldRecords, hkind]) hcomplete)
  unfold receiveCommand
  split
  · exact .trans (t := capture (laneBytes d) s) (.keep (keeps_cmd _ s) (by decide)) (passWrite_moves ..)
  · exact (hold_moves hw hu d).trans (.keep (keeps_cmd _ _) (by decide))

end Reception

theorem endSweep_moves (s : State) : PathMoves s (endSweep s) := .same rfl le_rfl fun _ => Nat.zero_le _

theorem followMap_moves (off : Nat) (s : State) : PathMoves s (followMap off s) := by
  have hcomplete (u : State) : PathMoves u (completeOrReceiving u) := .keep (completeOrReceiving_keeps u) (by decide)
  have henter : PathMoves s (enterComplete s) := .keep (.append (keeps_img _ s) (offer_keeps _ _)) (by decide)
  have hreceiving : PathMoves s (enterReceiving s) := .keep (keeps_img _ s) (by decide)
  unfold followMap
  split
  · exact .refl s
  · split
    · exact henter
    · exact .refl s
  · split
    · exact .refl s
    · exact hreceiving
  · split
    · exact .refl s
    · exact hreceiving
  · exact hcomplete s
  · exact (endSweep_moves s).trans ((PathMoves.keep (keeps_free _ _) (by decide)).trans ((PathMoves.keep (offer_keeps _ _) (by decide)).trans
      (hcomplete _)))

theorem trackWrite_moves (a : TxnAddr) (d : List Lane) (s : State) : PathMoves s (trackWrite a d s) := by
  unfold trackWrite
  split
  · exact .refl s
  · dsimp only
    split
    · exact .trans (.keep (keeps_img _ s) (by decide)) (followMap_moves _ _)
    · exact .trans (.keep (keeps_img _ s) (by decide)) (followMap_moves _ _)

theorem receive_moves (wanted : Reception → Bool) (tag : Nat) (d : List Lane) (s : State) : PathMoves s (receive wanted tag d s) := by
  obtain h | ⟨w, haw, h⟩ := receive_cases wanted tag d s <;> rw [h]
  · exact .refl s
  · obtain ⟨hfind, hst⟩ := awaited_eq_some haw
    have hw : findWrite s.path w.tag = some w := by rw [(findWrite_eq_some hfind).2]; exact hfind
    have hpass {u : State} (h : PathMoves s u) : PathMoves s (passWrite w.tag d u) := h.trans (passWrite_moves ..)
    cases hk : receptionOf s.img w d with
    | refusal => exact modWrite_moves s fun _ _ _ => .decided rfl id rfl
    | record => exact receiveRecord_moves hw hst hk
    | staging => exact hpass (trackWrite_moves _ _ s)
    | descriptor => exact receiveDescriptor_moves hw hst hk
    | status => exact receiveStatus_moves hw hst hk
    | frameStart => exact hpass (.keep (keeps_capture _ s) (by decide))
    | peer =>
      dsimp only [receiveAs, receivePeer]
      split
      · exact passWrite_moves ..
      · exact hpass (.keep (takePeer_keeps _ s) (by decide))
    | command => exact receiveCommand_moves hw hst hk
    | commandOther => exact hpass (.keep (.append (keeps_cmd _ s) (offer_keeps _ _)) (by decide))
    | tail => exact hpass (.keep (snoopTail_keeps _ s) (by decide))
    | plain =>
      dsimp only [receiveAs, receivePlain, countPeerPartial]
      split
      · exact hpass (.keep (keeps_sig _ s) (by decide))
      · exact passWrite_moves ..

/-! ### Arrivals -/

theorem arrivedWrite_places (a : TxnAddr) (stage : Stage) (s : State) (h : (arrivedWrite a stage s).undecided = true) :
    (arrivedWrite a stage s).taken = true := by
  have h' : (stage == .arriving && mayHold (lookupWindow s.win a.addr.toNat) a) = true := h
  rw [taken_iff]
  cases hl : (arrivedWrite a stage s).listed with
  | true => exact .inl rfl
  | false =>
    refine .inr ?_
    change (!(arrivedWrite a stage s).listed && (olderReserved s.path a.id || (stage == .arriving && _))) = true
    rw [hl, h', Bool.or_true]
    rfl

theorem PathInv.writeArrival (hs : PathInv s) (a : TxnAddr) : PathInv (writeArrival a s) := by
  have hentered (stage : Stage) (hc : listedCount s.path < 16) : PathInv (enterWrite (arrivedWrite a stage s) s) := by
    rw [pathInv_iff] at hs ⊢
    exact ⟨hs.1.arrive hc rfl (arrivedWrite_places a stage s), hs.2⟩
  unfold Machine.writeArrival
  split
  · next h =>
    have hc : listedCount s.path < 16 := of_decide_eq_true (Bool.and_eq_true_iff.1 h).2
    split
    · exact (PathMoves.keep (.append (keeps_img _ _) (offer_keeps _ _)) (by decide)).inv (hentered _ hc)
    · exact hentered _ hc
  · exact hs

theorem readArrival_moves (a : TxnAddr) (s : State) : PathMoves s (readArrival a s) := by
  unfold readArrival
  split
  · exact .same rfl (Nat.le_succ _) id
  · exact .refl s

/-! ### Decisions of held writes -/

theorem bootRecordCheck_moves (s : State) : PathMoves s (bootRecordCheck s) := by
  have hdrop (rest : List Nat) : PathMoves s (dropCheck rest s) := .keep (keeps_img _ s) (by decide)
  unfold bootRecordCheck
  split
  · exact .refl s
  · next tag rest _ =>
    dsimp only
    split
    · exact hdrop rest
    · next w _ =>
      split
      · rw [refuseRecord_eq]
        refine (hdrop rest).trans (.trans (t := countRefusedRecord tag (laneBytes w.data) (dropCheck rest s)) ?_
          (.keep (offerAll_keeps _ _) (by decide)))
        refine .trans (t := { dropCheck rest s with
          img := { (dropCheck rest s).img with refusedRecords := satInc count32 (dropCheck rest s).img.refusedRecords },
          free := (writtenVersion (laneBytes w.data) (dropCheck rest s)).2.free }) (.same rfl le_rfl id) (refuseWrite_moves tag _)
      · refine (hdrop rest).trans ?_
        have hkeep (trial : Nat) : PathMoves (dropCheck rest s) (keepRecord tag (laneBytes w.data) trial (dropCheck rest s)) :=
          .trans (.keep (keeps_img _ _) (by decide)) (release_moves tag _)
        unfold acceptRecord
        dsimp only
        split
        · exact (hkeep 0).trans (.keep (offer_keeps _ _) (by decide))
        · exact hkeep _

theorem descriptorDisposition_moves (s : State) : PathMoves s (descriptorDisposition s) := by
  unfold descriptorDisposition
  split
  · exact .refl s
  · split
    · exact .refl s
    · exact (PathMoves.keep (dropHeld_keeps s) (by decide)).trans ((PathMoves.keep (decide5_keeps _ _) (by decide)).trans
        (releaseRewritten_moves _ _ _))

theorem statusDecision_moves (s : State) : PathMoves s (statusDecision s) := by
  unfold statusDecision
  split
  · exact .refl s
  · split
    · exact .refl s
    · exact (PathMoves.keep (dropHeld_keeps s) (by decide)).trans ((PathMoves.keep (decideStatus_keeps _ _) (by decide)).trans
        (releaseRewritten_moves _ _ _))

/-! ### Grants -/

theorem emit_moves (e : PortEvent) (s : State) : PathMoves s (emit e s) := .keep (emit_keeps e s) (by decide)

theorem writeGrant_moves (s : State) : PathMoves s (writeGrant s) := by
  unfold writeGrant
  split
  · exact .same rfl (Nat.le_succ _) id
  · split
    · exact .refl s
    · next w _ =>
      refine .trans (t := modWrite w.tag (fun v => { v with stage := .issued, listed := false, reserved := false }) s)
        (modWrite_moves s fun _ _ _ => .decided rfl (fun h => absurd h Bool.false_ne_true) rfl) ?_
      have hready (x : List Nat) (u : State) : PathMoves u { u with path := { u.path with ready := x } } := .same rfl le_rfl id
      exact (hready _ _).trans ((settleLists_moves _).trans (emit_moves _ _))

theorem readGrant_moves (s : State) : PathMoves s (readGrant s) := by
  have hsweep (w : Sweep) : PathMoves s (grantSweep w s) := .same rfl (Nat.le_succ _) fun _ => Nat.zero_le _
  have hread (r : ReadTx) (counts : Bool) : PathMoves s (grantRead r counts s) := by
    refine .same rfl le_rfl fun h => ?_
    change (if counts then satInc 64 s.path.sweepWait else s.path.sweepWait) ≤ 64
    split
    · exact Nat.min_le_right _ _
    · exact h
  unfold readGrant
  split
  · exact .same rfl (Nat.le_succ _) id
  · split
    · split
      · exact hsweep _
      · exact hread _ _
    · exact hsweep _
    · exact hread _ _
    · exact .refl s

/-! ### Responses -/

theorem flushWrites_sublist (id : AxiId) (ws : List WriteTx) : (flushWrites id ws).1.Sublist ws := by
  induction ws with
  | nil => exact .slnil
  | cons w ws ih =>
    unfold flushWrites
    split
    · split
      · exact ih.cons w
      all_goals exact .refl _
    · exact ih.cons_cons w

theorem PathMoves.sublist (hw : t.path.writes.Sublist s.path.writes) (hn : t.path.nextTag = s.path.nextTag)
    (hk : t.path.sweepWait = s.path.sweepWait) : PathMoves s t := by
  refine ⟨fun hs => ?_, fun hs => List.sublist_nil.1 (hs ▸ hw)⟩
  rw [pathInv_iff] at hs ⊢
  rw [hn, hk]
  exact ⟨hs.1.sublist hw, hs.2⟩

theorem flush_moves (id : AxiId) (s : State) : PathMoves s (flush id s) := .sublist (flushWrites_sublist id _) rfl rfl

theorem downResponse_moves (tag : Nat) (resp : DownResp) (s : State) : PathMoves s (downResponse tag resp s) := by
  cases resp with
  | write r =>
    dsimp only [downResponse, writeResponse]
    split
    · exact .refl s
    · split
      · refine .trans (t := modWrite tag (fun w => { w with stage := .answered r }) s) ?_ (flush_moves _ _)
        exact modWrite_moves s fun _ _ _ => .decided rfl id rfl
      · exact .refl s
  | read resps data =>
    dsimp only [downResponse, readResponse]
    split
    · exact .refl s
    · exact .same rfl le_rfl id

theorem refusedResponse_moves (tag : Nat) (s : State) : PathMoves s (refusedResponse tag s) := by
  unfold refusedResponse
  split
  · exact .refl s
  · split
    · have hdrop : PathMoves s { s with path := { s.path with writes := s.path.writes.filter fun q => q.tag != tag } } :=
        .sublist List.filter_sublist rfl rfl
      exact hdrop.trans ((emit_moves _ _).trans (flush_moves _ _))
    · exact .refl s

/-! ### Commands -/

theorem captureHeld_moves (s : State) : PathMoves s (captureHeld s) := by
  have hcmd (x : CommandUnit) : PathMoves s { s with cmd := x } := .keep (keeps_cmd x s) (by decide)
  unfold captureHeld
  split
  · exact .refl s
  · split
    · split
      · exact hcmd _
      · refine .trans ?_ (release_moves _ _)
        exact hcmd _
    · exact .refl s

theorem completeCommand_moves (status : Status) (result : List Byte) (s : State) : PathMoves s (completeCommand status result s) := by
  unfold completeCommand
  split
  · exact .refl s
  · exact (PathMoves.keep (.append (offer_keeps _ s) (keeps_cmd _ _)) (by decide)).trans (captureHeld_moves _)

theorem resumeCommand_moves (k : Fin 16) (s : State) : PathMoves s (resumeCommand k s) := by
  unfold resumeCommand
  split
  · split
    · exact completeCommand_moves _ _ s
    · exact .refl s
  · split
    · exact .keep (setExecuting_keeps _ s) (by decide)
    · exact .refl s
  all_goals exact .refl s

theorem finishDump_moves (k : Fin 16) (d : Dumping) (s : State) : PathMoves s (finishDump k d s) :=
  .trans (.keep (.append (offer_keeps _ s) (keeps_hold _ _)) (by decide)) (resumeCommand_moves k _)

theorem takeRelease_moves (outcome : HandoffOutcome) (i : Fin 128) (st : Station) (k : Fin 16) (o : Occupied) (s : State) :
    PathMoves s (takeRelease outcome i st k o s) := by
  have hrequested (refs : List (HoldRef × Disposition)) : PathMoves s (requestDump k refs (releaseTaken outcome i st k o s)) :=
    .keep (.append (.append (keeps_hold _ s) (keeps_sta _ _)) (requestDump_keeps k refs _)) (by decide)
  rw [takeRelease_eq]
  split
  · exact (hrequested _).trans (finishDump_moves k _ _)
  · exact hrequested _

theorem visitStation_moves (i : Fin 128) (s : State) : PathMoves s (visitStation i s) := by
  unfold visitStation
  split
  · exact .refl s
  · split
    · split
      · exact .keep (.append (keeps_sta _ s) (offer_keeps _ _)) (by decide)
      · exact .keep (keeps_sta _ s) (by decide)
      · split
        · exact .refl s
        · exact takeRelease_moves _ _ _ _ _ _
      · exact .refl s
      · exact .refl s
    · exact .refl s

theorem visitFor_moves (state : Roam) (s : State) : PathMoves s (visitFor state s) := by
  unfold visitFor
  split
  · unfold visitStations
    dsimp only
    have hfold := foldl_invariant (inv := PathMoves s) (fun _ i h => h.trans (visitStation_moves i _)) (List.finRange 128) (.refl s)
    generalize (List.finRange 128).foldl (fun s i => visitStation i s) s = u at hfold ⊢
    exact hfold.trans (.keep (keeps_time _ u) (by decide))
  · exact .refl s

theorem dumpResponse_moves (tag : Nat) (resp : Resp) (s : State) : PathMoves s (dumpResponse tag resp s) := by
  unfold dumpResponse
  split
  · next k _ =>
    split
    · have hcounted : PathMoves s (if resp = .okay then dropOwn tag s else
          { dropOwn tag s with hold := { s.hold with dumpFaults := satInc count32 s.hold.dumpFaults } }) := by
        split
        · exact .same rfl le_rfl id
        · exact .same rfl le_rfl id
      dsimp only
      split
      · exact hcounted.trans (finishDump_moves k _ _)
      · exact hcounted.trans (.keep (keeps_hold _ _) (by decide))
    · exact .refl s
    · exact .refl s
  · exact .refl s

theorem clearStep_moves (s : State) : PathMoves s (clearStep s) := by
  unfold clearStep
  split
  · split
    · exact .refl s
    · exact .keep (clearFlows_keeps _ s) (by decide)
  · split
    · exact .refl s
    · exact .trans (t := emptyStation _ s) (.keep (.append (keeps_cls _ s) (keeps_sta _ _)) (by decide)) (completeCommand_moves _ _ _)
  all_goals exact .refl s

theorem stationClear_moves (p : List Byte) (s : State) : PathMoves s (stationClear p s) := by
  unfold stationClear
  split
  · exact completeCommand_moves _ _ s
  · split
    · exact completeCommand_moves _ _ s
    · split
      · exact .trans (.keep (setExecuting_keeps _ s) (by decide)) (takeRelease_moves _ _ _ _ _ _)
      · exact .keep (clearFlows_keeps _ s) (by decide)

theorem handoffEnd_moves (p : List Byte) (s : State) : PathMoves s (handoffEnd p s) := by
  unfold handoffEnd
  split
  · split
    · exact completeCommand_moves _ _ s
    · split
      · exact completeCommand_moves _ _ s
      · exact .trans (.keep (setExecuting_keeps _ s) (by decide)) (takeRelease_moves _ _ _ _ _ _)
  · exact completeCommand_moves _ _ s

theorem clearSection_path (sec : Nat) (s : State) : (clearSection sec s).path = s.path := by
  unfold clearSection
  split
  · rfl
  · split
    · rfl
    · split
      · rfl
      · have hkeep : KeepsAllBut [.sta] s (clearStations sec s) := foldl_keeps (fun u i => keeps_sta _ u) _ s
        exact hkeep .path (by decide)

theorem stats_moves (p : List Byte) (s : State) : PathMoves s (stats p s) := by
  have hrequests (ws : List OwnWrite) (u : State) : PathMoves u (ws.foldl (fun s w => request w s) u) :=
    .keep (foldl_keeps (fun u w => keeps_own _ u) ws u) (by decide)
  have hclear (clear : Bool) (u : State) : PathMoves u (if clear then clearSection (param1 p 0) u else u) := by
    split
    · have h := clearSection_path (param1 p 0) u
      exact .same (by rw [h]) (by rw [h]) (by rw [h]; exact id)
    · exact .refl u
  unfold stats
  split
  · exact completeCommand_moves _ _ s
  · split
    · have hfree (n : Nat) : PathMoves s { s with free := n } := .keep (keeps_free n s) (by decide)
      exact ((hfree _).trans (hclear _ _)).trans ((hrequests _ _).trans (.keep (setExecuting_keeps _ _) (by decide)))
    · exact completeCommand_moves _ _ s

theorem statsResponse_moves (tag : Nat) (resp : Resp) (s : State) : PathMoves s (statsResponse tag resp s) := by
  have hdrop : PathMoves s (dropOwn tag s) := .keep (dropOwn_keeps tag s) (by decide)
  unfold statsResponse
  split
  · dsimp only
    split
    · exact hdrop.trans ((PathMoves.keep (offer_keeps _ _) (by decide)).trans (completeCommand_moves _ _ _))
    · exact hdrop.trans (.keep (setExecuting_keeps _ _) (by decide))
  · exact .refl s

theorem unknownCommand_moves (s : State) : PathMoves s (unknownCommand s) := by
  unfold unknownCommand
  split
  · split
    · exact .refl s
    · exact completeCommand_moves _ _ s
  · exact .refl s

theorem finishSweep_moves (result : VerifyResult) (state : StagingState) (crc : Word) (offset : Nat) (s : State) :
    PathMoves s (finishSweep result state crc offset s) := by
  have hw : PathMoves s { s with path := { s.path with sweepWait := 0 } } := .same rfl le_rfl fun _ => Nat.zero_le _
  exact hw.trans (.keep (.append (keeps_img _ _) (offer_keeps _ _)) (by decide))

theorem sweepReadReturn_moves (tag : Nat) (resps : List Resp) (data : List Byte) (s : State) :
    PathMoves s (sweepReadReturn tag resps data s) := by
  have hset (x : Staging) : PathMoves s (setStaging x s) := .keep (keeps_img _ s) (by decide)
  unfold sweepReadReturn
  split
  · exact hset _
  · split
    · exact .refl s
    · split
      · unfold sweepData
        dsimp only
        split
        · split
          · split
            · exact .trans (.keep (keeps_img _ s) (by decide)) (finishSweep_moves _ _ _ _ _)
            · exact finishSweep_moves _ _ _ _ _
          · exact hset _
        · exact finishSweep_moves _ _ _ _ _
      · exact .refl s

theorem runCommand_moves (code : Nat) {owner : List Byte → State → State} (h : ∀ p, PathMoves s (owner p s)) :
    PathMoves s (runCommand code owner s) := by
  obtain he | ⟨-, -, c, -, -, he | he⟩ := runCommand_cases code owner s <;> rw [he]
  · exact .refl s
  · exact completeCommand_moves _ _ s
  · exact h _

theorem atOnce_moves {c : Instr} {a : AtOnce} (ha : atOnceOf c = some a) (p : List Byte) (s : State) : PathMoves s (atOnce a.owner p s) := by
  refine .trans (t := (a.owner p s).state) ?_ (completeCommand_moves _ _ _)
  obtain h | h := atOnceOf_path ha p s
  · exact .same (by rw [h]) (by rw [h]) (by rw [h]; exact id)
  · exact .same (by rw [h]) (by rw [h]) (by rw [h]; exact fun _ => Nat.zero_le _)

/-! ### Every event -/

/-- Every event but the arrival of a write moves the path so; both resets empty it. -/
theorem exec_moves {c : Instr} (h : exec c s = .next t) (hc : ∀ a, c ≠ .upstreamWriteArrival a) : PathMoves s t := by
  have hreset {u : State} (hw : u.path.writes = []) (hk : u.path.sweepWait = 0) : PathMoves s u := by
    refine ⟨fun _ => ?_, fun _ => hw⟩
    rw [pathInv_iff, hw, hk]
    exact ⟨writesOk_nil _, Nat.zero_le _⟩
  by_cases hb : Block.path ∈ touched c
  · cases ha : atOnceOf c with
    | some a =>
      rw [exec_atOnce ha] at h
      cases h
      exact runCommand_moves a.code fun p => atOnce_moves ha p s
    | none =>
      cases c with
      | powerOnReset =>
        cases h
        unfold powerOnReset
        split
        · exact .refl s
        · exact hreset rfl rfl
      | warmReset =>
        cases h
        unfold warmReset
        split
        · exact .refl s
        · exact hreset rfl rfl
      | abandonedResponse tag => cases h; exact .same rfl le_rfl id
      | upstreamWriteArrival a => exact absurd rfl (hc a)
      | upstreamReadArrival a => cases h; exact readArrival_moves a s
      | upstreamWriteReceived tag d => cases h; exact receive_moves _ tag d s
      | frameStartWrite tag d => cases h; exact receive_moves _ tag d s
      | peerRecord tag d => cases h; exact receive_moves _ tag d s
      | commandCapture tag d => cases h; exact receive_moves _ tag d s
      | tailWordWrite tag d => cases h; exact receive_moves _ tag d s
      | stagingWriteTracked tag d => cases h; exact receive_moves _ tag d s
      | bootRecordCheck => cases h; exact bootRecordCheck_moves s
      | descriptorDisposition => cases h; exact descriptorDisposition_moves s
      | statusRecordDecision => cases h; exact statusDecision_moves s
      | writeSideGrant => cases h; exact writeGrant_moves s
      | readSideGrant => cases h; exact readGrant_moves s
      | downstreamResponse tag resp => cases h; exact downResponse_moves tag resp s
      | refusedWriteResponse tag => cases h; exact refusedResponse_moves tag s
      | dumpWriteResponse tag resp => cases h; exact dumpResponse_moves tag resp s
      | statsWriteResponse tag resp => cases h; exact statsResponse_moves tag resp s
      | sweepReadReturn tag resps data => cases h; exact sweepReadReturn_moves tag resps data s
      | candidateExpired => cases h; exact visitFor_moves _ s
      | holdoffExpiry => cases h; exact visitFor_moves _ s
      | handoffTimeout => cases h; exact visitFor_moves _ s
      | unknownCommand => cases h; exact unknownCommand_moves s
      | stationClear =>
        cases h
        split
        · exact runCommand_moves 0x06 fun p => stationClear_moves p s
        · exact clearStep_moves s
      | handoffEnd => cases h; exact runCommand_moves 0x1B fun p => handoffEnd_moves p s
      | stats => cases h; exact runCommand_moves 0x20 fun p => stats_moves p s
      | _ => first | exact absurd hb (of_decide_eq_false rfl) | exact absurd ha nofun
  · exact .keep (exec_keeps h) hb

theorem PathInv.exec {c : Instr} (hs : PathInv s) (h : exec c s = .next t) : PathInv t := by
  by_cases hc : ∃ a, c = .upstreamWriteArrival a
  · obtain ⟨a, rfl⟩ := hc
    cases h
    exact hs.writeArrival a
  · exact (exec_moves h fun a ha => hc ⟨a, ha⟩).inv hs

end Moves

end Sys2Proof.Machine

/-! SUPPORT. The Window Table (R9 to R11, R16, R17): `WindowInv.exec`. -/

namespace Sys2Proof.Machine

open Sys2Proof

/-! ### The table -/

/-- The two fixed slots, the soft slots OFF or in DRAM with a kind of their own, and no byte shared. -/
structure WindowsOk (w : Windows) : Prop where
  control : ∃ sel, w.slots[(0 : Fin 16)] = WindowRec.control sel
  boot    : w.slots[(1 : Fin 16)] = WindowRec.bootAlias
  soft    : ∀ i : Fin 16, 2 ≤ i.val → w.slots[i].kind ≠ .control ∧ w.slots[i].kind ≠ .bootAlias ∧
    (w.slots[i].kind = .off ∨ w.slots[i].base + w.slots[i].size ≤ 0x1C000000)
  apart   : WindowsApart w

/-- While a reset is asserted the port is closed, nothing is inside the part, and the soft slots are OFF. -/
structure Shut (s : State) : Prop where
  boot   : s.boot = .closed
  writes : s.path.writes = []
  queue  : s.cmd.queue = []
  soft   : ∀ i : Fin 16, 2 ≤ i.val → s.win.slots[i] = WindowRec.off

/-- A reset pin is asserted. -/
def Asserted (s : State) : Prop := s.pins.por = true ∨ s.pins.rst = true

theorem windowInv_iff (s : State) : WindowInv s ↔ WindowsOk s.win ∧ (Asserted s → Shut s) := by
  constructor
  · rintro ⟨hc, ha, hs, hp, hr⟩
    refine ⟨⟨hc, ha, hs, hp⟩, fun h => ?_⟩
    obtain ⟨hb, hw, hq, ho⟩ := hr h
    exact ⟨hb, hw, hq, ho⟩
  · rintro ⟨⟨hc, ha, hs, hp⟩, hr⟩
    exact ⟨hc, ha, hs, hp, fun h => ⟨(hr h).boot, (hr h).writes, (hr h).queue, (hr h).soft⟩⟩

theorem WindowsOk.of_slots {v w : Windows} (h : WindowsOk v) (hw : w.slots = v.slots) : WindowsOk w := by
  obtain ⟨hc, ha, hs, hp⟩ := h
  unfold WindowsApart at hp
  refine ⟨?_, ?_, ?_, ?_⟩
  · rw [hw]; exact hc
  · rw [hw]; exact ha
  · rw [hw]; exact hs
  · unfold WindowsApart
    rw [hw]
    exact hp

/-- The control window lies in DRAM whatever the sample, below slot 1. -/
theorem controlBase_le (sel : BitVec 2) : Config.controlBase sel + 0x10000 ≤ 0x1C000000 := by
  unfold Config.controlBase
  split
  · decide
  · split
    · decide
    · split <;> decide

theorem fin16_cases (i : Fin 16) : i = 0 ∨ i = 1 ∨ 2 ≤ i.val := by omega

/-- A table with the two fixed slots and every soft slot OFF. -/
theorem WindowsOk.fixed {w : Windows} {sel : BitVec 2} (h0 : w.slots[(0 : Fin 16)] = WindowRec.control sel)
    (h1 : w.slots[(1 : Fin 16)] = WindowRec.bootAlias) (hsoft : ∀ i : Fin 16, 2 ≤ i.val → w.slots[i] = WindowRec.off) : WindowsOk w := by
  have hoff {i : Fin 16} (hi : 2 ≤ i.val) : w.slots[i].kind = .off := by rw [hsoft i hi]; rfl
  have hle := controlBase_le sel
  refine ⟨⟨sel, h0⟩, h1, fun i hi => ?_, fun i j hij hi hj => ?_⟩
  · rw [hoff hi]
    exact ⟨nofun, nofun, .inl rfl⟩
  · have hfixed {i : Fin 16} (hi : w.slots[i].kind ≠ .off) : i = 0 ∨ i = 1 :=
      (fin16_cases i).imp_right fun h => h.resolve_right fun h => hi (hoff h)
    obtain rfl | rfl := hfixed hi <;> obtain rfl | rfl := hfixed hj
    · exact absurd rfl hij
    · rw [h0, h1]; exact .inl hle
    · rw [h0, h1]; exact .inr hle
    · exact absurd rfl hij

theorem WindowsOk.initial (sel : BitVec 2) : WindowsOk (Windows.initial sel) ∧
    ∀ i : Fin 16, 2 ≤ i.val → (Windows.initial sel).slots[i] = WindowRec.off := by
  have hsoft (i : Fin 16) (hi : 2 ≤ i.val) : (Windows.initial sel).slots[i] = WindowRec.off := by
    simp only [Windows.initial, Fin.getElem_fin]
    rw [Vector.getElem_set_ne _ _ (by omega), Vector.getElem_set_ne _ _ (by omega), Vector.getElem_replicate]
  exact ⟨.fixed (sel := sel) rfl rfl hsoft, hsoft⟩

theorem putWindow_at (slot i : Fin 16) (r : WindowRec) (s : State) :
    (putWindow slot r s).win.slots[i] = if i = slot then r else s.win.slots[i] := vput_at ..

/-- A soft slot written: OFF, or in DRAM and sharing no byte with another enabled slot. -/
theorem WindowsOk.put {s : State} (h : WindowsOk s.win) {slot : Fin 16} (hslot : 2 ≤ slot.val) {r : WindowRec}
    (hk : r.kind ≠ .control ∧ r.kind ≠ .bootAlias) (hr : r.kind = .off ∨ r.base + r.size ≤ 0x1C000000)
    (ho : r.kind ≠ .off → ∀ i : Fin 16, i ≠ slot → s.win.slots[i].kind ≠ .off →
      r.base + r.size ≤ s.win.slots[i].base ∨ s.win.slots[i].base + s.win.slots[i].size ≤ r.base) : WindowsOk (putWindow slot r s).win := by
  obtain ⟨hc, ha, hs, hp⟩ := h
  have h0 : (0 : Fin 16) ≠ slot := by rintro rfl; exact absurd hslot (by decide)
  have h1 : (1 : Fin 16) ≠ slot := by rintro rfl; exact absurd hslot (by decide)
  refine ⟨?_, ?_, fun i hi => ?_, fun i j hij => ?_⟩
  · rw [putWindow_at, if_neg h0]; exact hc
  · rw [putWindow_at, if_neg h1]; exact ha
  · rw [putWindow_at]
    split
    · exact ⟨hk.1, hk.2, hr⟩
    · exact hs i hi
  · rw [putWindow_at, putWindow_at]
    split
    · next hi =>
      rw [if_neg fun hj => hij (hi.trans hj.symm)]
      exact fun hri hj => ho hri j (fun hj' => hij (hi.trans hj'.symm)) hj
    · next hi =>
      split
      · exact fun hi' hrj => (ho hrj i hi hi').symm
      · exact hp i j hij

/-! ### The commands of the Window Decoder -/

theorem softSlot_ge {n : Nat} {slot : Fin 16} (h : softSlot n = some slot) : 2 ≤ slot.val := by
  unfold softSlot at h
  split at h
  · next hn =>
    unfold indexOf at h
    split at h
    · cases h; exact hn
    · cases h
  · cases h

/-- A record that passes the checks of R10 has a kind of its own and lies in DRAM. -/
theorem windowRecordOf_ok {w : Windows} {p : WindowParams} {r : WindowRec} (h : windowRecordOf w p = some r) :
    r.kind ≠ .control ∧ r.kind ≠ .bootAlias ∧ r.base + r.size ≤ 0x1C000000 := by
  unfold windowRecordOf at h
  split at h
  · next hr =>
    have hend : p.base + p.size ≤ 0x1C000000 := of_decide_eq_true (Bool.and_eq_true_iff.1 hr).2
    split at h
    · split at h
      · split at h
        · cases h; exact ⟨nofun, nofun, hend⟩
        · cases h
      · cases h
    · split at h
      · split at h
        · cases h; exact ⟨nofun, nofun, hend⟩
        · cases h
      · cases h
    · split at h
      · cases h; exact ⟨nofun, nofun, hend⟩
      · cases h
    · split at h
      · cases h; exact ⟨nofun, nofun, hend⟩
      · cases h
    · cases h
  · cases h

theorem overlapsOther_false {w : Windows} {slot : Fin 16} {base size : Nat} (h : overlapsOther w slot base size = false) (i : Fin 16)
    (hi : i ≠ slot) (hk : w.slots[i].kind ≠ .off) :
    base + size ≤ w.slots[i].base ∨ w.slots[i].base + w.slots[i].size ≤ base := by
  by_contra hn
  rw [not_or, Nat.not_le, Nat.not_le] at hn
  refine Bool.false_ne_true (h.symm.trans (List.any_eq_true.2 ⟨i, List.mem_finRange i, ?_⟩))
  simp only [Bool.and_eq_true, bne_iff_ne, decide_eq_true_iff]
  exact ⟨⟨⟨hi, hk⟩, hn.2⟩, hn.1⟩

theorem WindowsOk.windowSet {s : State} (h : WindowsOk s.win) (p : List Byte) : WindowsOk (windowSet p s).state.win := by
  unfold Machine.windowSet
  dsimp only
  split
  · next slot r hslot hr =>
    split
    · exact h
    · next ho =>
      obtain ⟨hc, ha, hend⟩ := windowRecordOf_ok hr
      exact h.put (softSlot_ge hslot) ⟨hc, ha⟩ (.inr hend) fun _ => overlapsOther_false (Bool.not_eq_true _ ▸ ho)
  · exact h

theorem WindowsOk.windowClear {s : State} (h : WindowsOk s.win) (p : List Byte) : WindowsOk (windowClear p s).state.win := by
  unfold Machine.windowClear
  split
  · next slot hslot => exact h.put (softSlot_ge hslot) ⟨nofun, nofun⟩ (.inl rfl) fun hn => absurd rfl hn
  · exact h

theorem WindowsOk.atOnce {c : Instr} {a : AtOnce} {s : State} (ha : atOnceOf c = some a) (h : WindowsOk s.win) (p : List Byte) :
    WindowsOk (a.owner p s).state.win := by
  by_cases hb : Block.win ∈ a.parts
  · cases c with
    | windowSet => cases ha; exact h.windowSet p
    | windowClear => cases ha; exact h.windowClear p
    | descProfileSet =>
      cases ha
      refine h.of_slots ?_
      dsimp only [descProfileSet]
      split
      · split <;> rfl
      · rfl
    | statusProfileSet =>
      cases ha
      refine h.of_slots ?_
      dsimp only [statusProfileSet]
      split
      · split <;> rfl
      · rfl
    | _ => first | (cases ha; exact absurd hb (of_decide_eq_false rfl)) | exact absurd ha nofun
  · obtain ⟨rs, hr⟩ := a.spec p s
    rw [hr.keeps .win fun hm => (List.mem_append.1 hm).elim hb (by decide)]
    exact h

/-! ### While a reset is asserted -/

section ShutStates

variable {s t : State}

theorem completeCommand_nil (hq : s.cmd.queue = []) (status : Status) (result : List Byte) : completeCommand status result s = s := by
  unfold completeCommand
  rw [hq]

theorem runCommand_nil (hq : s.cmd.queue = []) (code : Nat) (owner : List Byte → State → State) : runCommand code owner s = s := by
  obtain h | ⟨-, -, c, rest, hc, -⟩ := runCommand_cases code owner s
  · exact h
  · rw [hq] at hc
    cases hc

theorem findWrite_nil (hw : s.path.writes = []) (tag : Nat) : findWrite s.path tag = none := by rw [findWrite, hw]; rfl

theorem receive_nil (hw : s.path.writes = []) (wanted : Reception → Bool) (tag : Nat) (d : List Lane) : receive wanted tag d s = s := by
  unfold receive awaited
  rw [findWrite_nil hw]

theorem resumeCommand_queue (hq : s.cmd.queue = []) (k : Fin 16) : (resumeCommand k s).cmd.queue = [] := by
  unfold resumeCommand
  split
  · split
    · rw [completeCommand_nil hq]; exact hq
    · exact hq
  · split
    · exact hq
    · exact hq
  all_goals exact hq

theorem finishDump_queue (hq : s.cmd.queue = []) (k : Fin 16) (d : Dumping) : (finishDump k d s).cmd.queue = [] := by
  refine resumeCommand_queue ?_ k
  exact (offer_queue _ s).trans hq

theorem takeRelease_queue (hq : s.cmd.queue = []) (outcome : HandoffOutcome) (i : Fin 128) (st : Station) (k : Fin 16) (o : Occupied) :
    (takeRelease outcome i st k o s).cmd.queue = [] := by
  have hrequested (refs : List (HoldRef × Disposition)) : (requestDump k refs (releaseTaken outcome i st k o s)).cmd.queue = [] := by
    rw [requestDump_keeps k refs _ .cmd (by decide)]
    exact hq
  rw [takeRelease_eq]
  split
  · exact finishDump_queue (hrequested _) k _
  · exact hrequested _

theorem visitStation_queue (hq : s.cmd.queue = []) (i : Fin 128) : (visitStation i s).cmd.queue = [] := by
  unfold visitStation
  split
  · exact hq
  · split
    · split
      · exact (offer_queue _ _).trans hq
      · exact hq
      · split
        · exact hq
        · exact takeRelease_queue hq _ _ _ _ _
      · exact hq
      · exact hq
    · exact hq

theorem visitFor_queue (hq : s.cmd.queue = []) (state : Roam) : (visitFor state s).cmd.queue = [] := by
  unfold visitFor
  split
  · unfold visitStations
    dsimp only
    exact foldl_invariant (inv := fun u => u.cmd.queue = []) (fun _ i h => visitStation_queue h i) (List.finRange 128) hq
  · exact hq

theorem dumpResponse_queue (hq : s.cmd.queue = []) (tag : Nat) (resp : Resp) : (dumpResponse tag resp s).cmd.queue = [] := by
  unfold dumpResponse
  split
  · split
    · have hcounted : (if resp = .okay then dropOwn tag s else
          { dropOwn tag s with hold := { s.hold with dumpFaults := satInc count32 s.hold.dumpFaults } }).cmd.queue = [] := by
        split <;> exact hq
      dsimp only
      split
      · exact finishDump_queue hcounted _ _
      · exact hcounted
    · exact hq
    · exact hq
  · exact hq

theorem statsResponse_queue (hq : s.cmd.queue = []) (tag : Nat) (resp : Resp) : (statsResponse tag resp s).cmd.queue = [] := by
  unfold statsResponse
  split
  · dsimp only
    split
    · have hoffered (r : Report) : (offer r (dropOwn tag s)).cmd.queue = [] := (offer_queue r _).trans hq
      rw [completeCommand_nil (hoffered _)]
      exact hoffered _
    · exact hq
  · exact hq

theorem clearStep_queue (hq : s.cmd.queue = []) : (clearStep s).cmd.queue = [] := by
  unfold clearStep
  split
  · split <;> exact hq
  · split
    · exact hq
    · rw [completeCommand_nil (s := emptyStation _ s) hq]
      exact hq
  all_goals exact hq

theorem unknownCommand_nil (hq : s.cmd.queue = []) : unknownCommand s = s := by
  unfold unknownCommand
  rw [hq]
  split
  · next h => cases h
  · rfl

/-- With the port closed, no write inside the part and no command, no event but a reset or its release brings one in. -/
theorem exec_queue (hs : Shut s) {c : Instr} (h : exec c s = .next t) : t.cmd.queue = [] := by
  have hq := hs.queue
  have hstays {u : State} (h : Continues false s u) : u.cmd.queue = [] := h.stays.trans hq
  have hreceive (wanted : Reception → Bool) (tag : Nat) (d : List Lane) : (receive wanted tag d s).cmd.queue = [] := by
    rw [receive_nil hs.writes]; exact hq
  by_cases hb : Block.cmd ∈ touched c
  · cases ha : atOnceOf c with
    | some a =>
      rw [exec_atOnce ha, runCommand_nil hq] at h
      cases h
      exact hq
    | none =>
      cases c with
      | powerOnReset =>
        cases h
        unfold powerOnReset
        split
        · exact hq
        · rfl
      | warmReset =>
        cases h
        unfold warmReset
        split
        · exact hq
        · rfl
      | bootRecordReadComplete resps data => cases h; exact hstays ((Continues.refl s).bootReadComplete resps data)
      | upstreamWriteArrival a => cases h; exact hstays ((Continues.refl s).writeArrival a)
      | upstreamWriteReceived tag d => cases h; exact hreceive _ tag d
      | frameStartWrite tag d => cases h; exact hreceive _ tag d
      | peerRecord tag d => cases h; exact hreceive _ tag d
      | commandCapture tag d => cases h; exact hreceive _ tag d
      | tailWordWrite tag d => cases h; exact hreceive _ tag d
      | stagingWriteTracked tag d => cases h; exact hreceive _ tag d
      | bootRecordCheck => cases h; exact hstays (Continues.refl s).bootRecordCheck
      | statusRecordDecision => cases h; exact hstays (Continues.refl s).statusDecision
      | signalSample i => cases h; exact hstays ((Continues.refl s).signalSample i)
      | reportRecordResponse tag resp => cases h; exact hstays ((Continues.refl s).reportResponse tag resp)
      | headWordResponse tag resp => cases h; exact hstays ((Continues.refl s).headResponse tag resp)
      | dumpWriteResponse tag resp => cases h; exact dumpResponse_queue hq tag resp
      | statsWriteResponse tag resp => cases h; exact statsResponse_queue hq tag resp
      | sweepReadReturn tag resps data => cases h; exact hstays ((Continues.refl s).sweepReadReturn tag resps data)
      | candidateExpired => cases h; exact visitFor_queue hq _
      | holdoffExpiry => cases h; exact visitFor_queue hq _
      | handoffTimeout => cases h; exact visitFor_queue hq _
      | minuteBoundary => cases h; exact hstays (Continues.refl s).minuteBoundary
      | lineEdge => cases h; exact hstays (Continues.refl s).lineEdge
      | pacingPeriodBoundary => cases h; exact hstays (Continues.refl s).pacingBoundary
      | unknownCommand => cases h; rw [unknownCommand_nil hq]; exact hq
      | stationClear =>
        cases h
        split
        · rw [runCommand_nil hq]; exact hq
        · exact clearStep_queue hq
      | handoffEnd => cases h; rw [runCommand_nil hq]; exact hq
      | stats => cases h; rw [runCommand_nil hq]; exact hq
      | _ => first | exact absurd hb (of_decide_eq_false rfl) | exact absurd ha nofun
  · rw [exec_keeps h .cmd hb]
    exact hq

theorem exec_writes (hs : Shut s) {c : Instr} (h : exec c s = .next t) : t.path.writes = [] := by
  by_cases hc : ∃ a, c = .upstreamWriteArrival a
  · obtain ⟨a, rfl⟩ := hc
    cases h
    have hclosed : acceptsWrite s = false := by rw [acceptsWrite, hs.boot]; rfl
    rw [writeArrival, hclosed]
    exact hs.writes
  · exact (exec_moves h fun a ha => hc ⟨a, ha⟩).empty hs.writes

/-- A closed port opens only after a release of the resets. -/
theorem exec_boot (hb : s.boot = .closed) {c : Instr} (h : exec c s = .next t) (hc : ∀ pin sel, c ≠ .resetRelease pin sel) :
    t.boot = .closed := by
  by_cases hm : Block.boot ∈ touched c
  · cases c with
    | powerOnReset =>
      cases h
      unfold powerOnReset
      split
      · exact hb
      · rfl
    | warmReset =>
      cases h
      unfold warmReset
      split
      · exact hb
      · rfl
    | resetRelease pin sel => exact absurd rfl (hc pin sel)
    | bootRecordReadIssue =>
      cases h
      rw [bootReadIssue, hb]
      exact hb
    | bootRecordReadComplete resps data =>
      cases h
      rw [bootReadComplete, hb]
      exact hb
    | readSideGrant =>
      cases h
      unfold readGrant
      rw [hb]
      split
      · next h => cases h
      · split
        · split <;> exact hb
        · exact hb
        · exact hb
        · exact hb
    | _ => exact absurd hm (of_decide_eq_false rfl)
  · exact (exec_keeps h .boot hm).trans hb

end ShutStates

/-! ### Every event -/

section Windows

variable {s t : State}

theorem WindowInv.reset {pins : Pins} {carry : List Carry} {clock : Clock} {due : Bool} {trial : Nat} :
    WindowInv (resetBlocks pins carry clock due trial s) :=
  (windowInv_iff _).2 ⟨(WindowsOk.initial _).1, fun _ => ⟨rfl, rfl, rfl, (WindowsOk.initial _).2⟩⟩

/-- The release of a pin is the release of an asserted one, and the soft slots are OFF then. -/
theorem WindowInv.resetRelease (hs : WindowInv s) (pin : ResetPin) (sel : BitVec 2) : WindowInv (resetRelease pin sel s) := by
  have hs' := hs
  rw [windowInv_iff] at hs' ⊢
  obtain ⟨hok, hshut⟩ := hs'
  unfold Machine.resetRelease
  split
  · next ha =>
    have hpin : Asserted s := by cases pin <;> [exact .inl ha; exact .inr ha]
    obtain ⟨-, hw, hq, hsoft⟩ := hshut hpin
    have hat (u : State) (hu : u.win = s.win) (i : Fin 16) :
        (putWindow 0 (WindowRec.control sel) u).win.slots[i] = if i = 0 then WindowRec.control sel else s.win.slots[i] := by
      rw [putWindow_at, hu]
    have hsoft' (u : State) (hu : u.win = s.win) (i : Fin 16) (hi : 2 ≤ i.val) :
        (putWindow 0 (WindowRec.control sel) u).win.slots[i] = WindowRec.off := by
      rw [hat u hu, if_neg (by rintro rfl; exact absurd hi (by decide)), hsoft i hi]
    dsimp only
    refine ⟨.fixed (sel := sel) ?_ ?_ (hsoft' _ rfl), fun h => ⟨?_, hw, hq, hsoft' _ rfl⟩⟩
    · rw [hat _ (by rfl), if_pos rfl]
    · rw [hat _ (by rfl), if_neg (by decide)]
      exact hok.boot
    · have hp : ((s.pins.release pin sel).por || (s.pins.release pin sel).rst) = true := Bool.or_eq_true_iff.2 h
      change (if ((s.pins.release pin sel).por || (s.pins.release pin sel).rst) = true then Boot.closed else Boot.draining) = .closed
      rw [if_pos hp]
  · exact ⟨hok, hshut⟩

theorem exec_windows {c : Instr} (hs : WindowsOk s.win) (h : exec c s = .next t) (hp : Block.pins ∉ touched c) : WindowsOk t.win := by
  by_cases hb : Block.win ∈ touched c
  · cases ha : atOnceOf c with
    | some a =>
      rw [exec_atOnce ha] at h
      cases h
      obtain he | ⟨-, -, x, -, -, he | he⟩ := runCommand_cases a.code (Machine.atOnce a.owner) s <;> rw [he]
      · exact hs
      · rw [completeCommand_win]; exact hs
      · rw [Machine.atOnce, completeCommand_win]; exact hs.atOnce ha _
    | none =>
      cases c with
      | powerOnReset | warmReset => exact absurd (List.mem_cons_self ..) hp
      | resetRelease pin sel => exact absurd (List.mem_cons_self ..) hp
      | _ => first | exact absurd hb (of_decide_eq_false rfl) | exact absurd ha nofun
  · rw [exec_keeps h .win hb]
    exact hs

/-- While the Command Queue is empty no command writes the Window Table. -/
theorem exec_shutWindows {c : Instr} (hs : Shut s) (h : exec c s = .next t) (hp : Block.pins ∉ touched c) : t.win = s.win := by
  by_cases hb : Block.win ∈ touched c
  · cases ha : atOnceOf c with
    | some a =>
      rw [exec_atOnce ha, runCommand_nil hs.queue] at h
      cases h
      rfl
    | none =>
      cases c with
      | powerOnReset | warmReset => exact absurd (List.mem_cons_self ..) hp
      | resetRelease pin sel => exact absurd (List.mem_cons_self ..) hp
      | _ => first | exact absurd hb (of_decide_eq_false rfl) | exact absurd ha nofun
  · exact exec_keeps h .win hb

theorem WindowInv.exec {c : Instr} (hs : WindowInv s) (h : exec c s = .next t) : WindowInv t := by
  by_cases hp : Block.pins ∈ touched c
  · cases c with
    | powerOnReset =>
      cases h
      unfold powerOnReset
      split
      · exact hs
      · exact .reset
    | warmReset =>
      cases h
      unfold warmReset
      split
      · exact hs
      · exact .reset
    | resetRelease pin sel => cases h; exact hs.resetRelease pin sel
    | _ => exact absurd hp (of_decide_eq_false rfl)
  · rw [windowInv_iff] at hs ⊢
    obtain ⟨hok, hshut⟩ := hs
    have hpins : t.pins = s.pins := exec_keeps h .pins hp
    refine ⟨exec_windows hok h hp, fun ha => ?_⟩
    have hs' : Shut s := hshut (by rw [Asserted, hpins] at ha; exact ha)
    have hc (pin : ResetPin) (sel : BitVec 2) : c ≠ .resetRelease pin sel := by
      rintro rfl
      exact hp (List.mem_cons_self ..)
    exact ⟨exec_boot hs'.boot h hc, exec_writes hs' h, exec_queue hs' h, fun i hi => by rw [exec_shutWindows hs' h hp]; exact hs'.soft i hi⟩

end Windows

end Sys2Proof.Machine

/-! SUPPORT. The Flow Table and the Capture Buffer (R25, R71): `FlowInv.exec` and `CaptureInv.exec`. -/

namespace Sys2Proof.Machine

open Sys2Proof

/-! ### Counts of entries -/

section Counts

variable {α : Type} {n : Nat}

theorem vcount_mono {p : α → Bool} {v w : Vector α n} (h : ∀ i : Fin n, p w[i] = true → p v[i] = true) : vcount p w ≤ vcount p v := by
  have hlist (u : Vector α n) : u.toList = (List.finRange n).map fun i => u[i] :=
    List.ext_getElem (by simp) fun i _ _ => by simp
  rw [vcount, vcount, hlist, hlist, List.countP_map, List.countP_map]
  exact List.countP_mono_left fun i _ => h i

theorem vcount_vput_le (p : α → Bool) (v : Vector α n) (i : Fin n) (x : α) : vcount p (vput v i x) ≤ vcount p v + 1 := by
  have hset : (vput v i x).toList = v.toList.set i.val x := Vector.toList_set ..
  rw [vcount, vcount, hset, List.countP_set (by simp)]
  split <;> split <;> omega

end Counts

/-! ### Changes of the Flow Table -/

/-- No key in two entries, and at most 64 pinned. -/
structure FlowsOk (v : Vector (Option Flow) 256) : Prop where
  keys   : ∀ (i j : Fin 256) (a b : Flow), v[i] = some a → v[j] = some b → a.key = b.key → i = j
  pinned : pinnedCount v ≤ 64

theorem flowInv_iff (s : State) : FlowInv s ↔ FlowsOk s.cls.flows := ⟨fun ⟨h, h'⟩ => ⟨h, h'⟩, fun ⟨h, h'⟩ => ⟨h, h'⟩⟩

/-- Every entry is freed, or keeps its key and is pinned only if it was. -/
def Thinned (v w : Vector (Option Flow) 256) : Prop :=
  ∀ i : Fin 256, w[i] = none ∨ ∃ a b, v[i] = some a ∧ w[i] = some b ∧ b.key = a.key ∧ (b.pinned = true → a.pinned = true)

section Flows

variable {v w : Vector (Option Flow) 256}

theorem Thinned.refl (v : Vector (Option Flow) 256) : Thinned v v := fun i => by
  cases h : v[i] with
  | none => exact .inl rfl
  | some a => exact .inr ⟨a, a, rfl, rfl, rfl, id⟩

theorem Thinned.trans {u : Vector (Option Flow) 256} (h : Thinned u v) (h' : Thinned v w) : Thinned u w := by
  intro i
  obtain hw | ⟨b, c, hb, hc, hk, hp⟩ := h' i
  · exact .inl hw
  · obtain hv | ⟨a, b', ha, hb', hk', hp'⟩ := h i
    · rw [hv] at hb; cases hb
    · rw [hb'] at hb
      cases hb
      exact .inr ⟨a, c, ha, hc, hk.trans hk', fun h => hp' (hp h)⟩

theorem FlowsOk.thin (hv : FlowsOk v) (h : Thinned v w) : FlowsOk w := by
  refine ⟨fun i j a b ha hb hk => ?_, (vcount_mono fun i hi => ?_).trans hv.pinned⟩
  · obtain hi | ⟨a₀, a', ha₀, ha', hka, -⟩ := h i
    · rw [hi] at ha; cases ha
    obtain hj | ⟨b₀, b', hb₀, hb', hkb, -⟩ := h j
    · rw [hj] at hb; cases hb
    rw [ha'] at ha
    rw [hb'] at hb
    cases ha
    cases hb
    exact hv.keys i j a₀ b₀ ha₀ hb₀ (hka.symm.trans (hk.trans hkb))
  · obtain hi' | ⟨a, b, ha, hb, -, hp⟩ := h i
    · rw [hi'] at hi; cases hi
    · rw [hb] at hi
      rw [ha]
      exact hp hi

theorem thinned_vmap {f : Option Flow → Option Flow} (hn : f none = none)
    (h : ∀ a, f (some a) = none ∨ ∃ b, f (some a) = some b ∧ b.key = a.key ∧ (b.pinned = true → a.pinned = true)) (v : Vector (Option Flow) 256) :
    Thinned v (vmap f v) := by
  intro i
  rw [vmap_at]
  cases hv : v[i] with
  | none => exact .inl hn
  | some a =>
    obtain ha | ⟨b, hb, hk, hp⟩ := h a
    · exact .inl ha
    · exact .inr ⟨a, b, rfl, hb, hk, hp⟩

theorem thinned_filter (p : Flow → Bool) (v : Vector (Option Flow) 256) : Thinned v (vmap (fun o => o.filter p) v) := by
  refine thinned_vmap rfl (fun a => ?_) v
  cases h : p a with
  | true => exact .inr ⟨a, by simp [Option.filter, h], rfl, id⟩
  | false => exact .inl (by simp [Option.filter, h])

theorem thinned_map {f : Flow → Flow} (h : ∀ a, (f a).key = a.key ∧ (f a).pinned = a.pinned) (v : Vector (Option Flow) 256) :
    Thinned v (vmap (Option.map f) v) :=
  thinned_vmap rfl (fun a => .inr ⟨f a, rfl, (h a).1, fun hp => (h a).2 ▸ hp⟩) v

/-- An entry written over one of its key. -/
theorem thinned_vput {i : Fin 256} {a b : Flow} (ha : v[i] = some a) (hk : b.key = a.key) (hp : b.pinned = true → a.pinned = true) :
    Thinned v (vput v i (some b)) := by
  intro j
  rw [vput_at]
  split
  · next hj => exact .inr ⟨a, b, hj ▸ ha, rfl, hk, hp⟩
  · exact Thinned.refl v j

theorem thinned_free (v : Vector (Option Flow) 256) (i : Fin 256) : Thinned v (vput v i none) := by
  intro j
  rw [vput_at]
  split
  · exact .inl rfl
  · exact Thinned.refl v j

theorem thinned_vmod {f : Flow → Flow} (hk : ∀ a, (f a).key = a.key) (hp : ∀ a, (f a).pinned = true → a.pinned = true) (v : Vector (Option Flow) 256)
    (i : Fin 256) : Thinned v (vmod v i (Option.map f)) := by
  cases ha : v[i] with
  | none =>
    rw [vmod, ha, Option.map_none]
    exact thinned_free v i
  | some a =>
    rw [vmod, ha, Option.map_some]
    exact thinned_vput ha (hk a) (hp a)

/-- An entry written under a key that stands nowhere else. -/
theorem FlowsOk.put (hv : FlowsOk v) {i : Fin 256} {e : Flow} (hk : ∀ (j : Fin 256) (a : Flow), j ≠ i → v[j] = some a → a.key ≠ e.key)
    (hp : e.pinned = true → pinnedCount v < 64) : FlowsOk (vput v i (some e)) := by
  refine ⟨fun j k a b ha hb hab => ?_, ?_⟩
  · rw [vput_at] at ha hb
    split at ha <;> split at hb
    · next hj hk' => rw [hj, hk']
    · next hj hk' => cases ha; exact absurd hab.symm (hk k b hk' hb)
    · next hj hk' => cases hb; exact absurd hab (hk j a hj ha)
    · exact hv.keys j k a b ha hb hab
  · cases hpin : e.pinned with
    | true => exact (vcount_vput_le _ v i _).trans (hp hpin)
    | false =>
      refine (vcount_mono fun j hj => ?_).trans hv.pinned
      rw [vput_at] at hj
      split at hj
      · exact absurd (hpin.symm.trans hj) Bool.false_ne_true
      · exact hj

theorem findFlow_none {key : FlowKey} (h : findFlow v key = none) (j : Fin 256) (a : Flow) (ha : v[j] = some a) : a.key ≠ key := by
  intro hk
  refine Bool.false_ne_true ((vfind_none.1 h j).symm.trans (flowHasKey_iff.2 ⟨a, ha, hk⟩))

theorem placeFor_thins {c c' : Classifier} {i : Fin 256} (h : placeFor c = some (i, c')) : Thinned c.flows c'.flows := by
  unfold placeFor at h
  split at h
  · cases h; exact .refl _
  · obtain ⟨j, -, hj⟩ := Option.map_eq_some_iff.1 h
    cases hj
    exact thinned_free _ _

/-- A flow whose key is in no entry takes the place found for it. -/
theorem FlowsOk.enter {c c' : Classifier} {i : Fin 256} (hc : FlowsOk c.flows) {e : Flow} (hk : findFlow c.flows e.key = none)
    (h : placeFor c = some (i, c')) (hp : e.pinned = true → pinnedCount c.flows < 64) : FlowsOk (vput c'.flows i (some e)) := by
  have hthin := placeFor_thins h
  refine (hc.thin hthin).put (fun j a _ ha => ?_) fun hpin => (vcount_mono fun j hj => ?_).trans_lt (hp hpin)
  · obtain hn | ⟨b, a', hb, ha', hkey, -⟩ := hthin j
    · rw [hn] at ha; cases ha
    · rw [ha'] at ha
      cases ha
      rw [hkey]
      exact findFlow_none hk j b hb
  · obtain hn | ⟨b, a', hb, ha', -, hpin'⟩ := hthin j
    · rw [hn] at hj; cases hj
    · rw [ha'] at hj
      rw [hb]
      exact hpin' hj

theorem FlowsOk.learn {c : Classifier} (hc : FlowsOk c.flows) {cap : Capture} (hk : findFlow c.flows cap.flowKey = none) (len now : Nat)
    (station : Option (Fin 128)) : FlowsOk (learn cap len now station c).2.flows := by
  have hcount (slot : Option (Fin 32)) : (countDecision slot c).flows = c.flows := by cases slot <;> rfl
  unfold Machine.learn
  dsimp only
  split
  · rw [hcount]; exact hc
  · next i c' h =>
    exact FlowsOk.enter (c := countDecision (decidingSlot c.rules cap len) c) (e := learntFlow cap.flowKey _ _ now station) (hcount _ ▸ hc)
      (hcount _ ▸ hk) h fun hp => absurd hp Bool.false_ne_true

theorem FlowsOk.classify {c : Classifier} (hc : FlowsOk c.flows) (cap : Option Capture) (len now : Nat) (station : Option (Fin 128)) :
    FlowsOk (classify cap len now station c).2.flows := by
  unfold Machine.classify
  split
  · exact hc
  · split
    · next h => exact hc.learn h len now station
    · next i _ =>
      split
      · exact hc
      · next e he => exact hc.thin (thinned_vput he rfl id)

theorem thinned_remove (p : Flow → Bool) (c : Classifier) : Thinned c.flows (removeFlows p c).2.flows := thinned_filter _ _

end Flows

/-! ### Events -/

section FlowEvents

variable {s t : State}

theorem FlowInv.thin (hs : FlowInv s) (h : Thinned s.cls.flows t.cls.flows) : FlowInv t :=
  (flowInv_iff t).2 (((flowInv_iff s).1 hs).thin h)

theorem FlowInv.same (hs : FlowInv s) (h : t.cls.flows = s.cls.flows) : FlowInv t := hs.thin (h ▸ .refl _)

theorem FlowInv.keep {bs : List Block} (hs : FlowInv s) (h : KeepsAllBut bs s t) (hb : Block.cls ∉ bs) : FlowInv t :=
  hs.same (by rw [h .cls hb])

theorem modFlow_thins {f : Flow → Flow} (h : ∀ a, (f a).key = a.key ∧ (f a).pinned = a.pinned) (i : Fin 256) (s : State) :
    Thinned s.cls.flows (modFlow i f s).cls.flows :=
  thinned_vmod (fun a => (h a).1) (fun a hp => (h a).2 ▸ hp) _ i

theorem admission_thins (slot : Fin 16) (len : Nat) (answer : ClassAnswer) (station : Option (Fin 128)) (noUrgent : Bool) (s : State) :
    Thinned s.cls.flows (admission slot len answer station noUrgent s).2.cls.flows := by
  unfold admission
  split
  · exact .refl _
  · exact .refl _
  · exact .refl _
  · split
    · exact .refl _
    · next i _ =>
      split
      · exact .refl _
      · unfold admitUrgent
        split
        · exact .refl _
        · split
          · split
            · have hcharge : (chargeUrgent slot len i station s).cls.flows =
                  (modFlow i (fun e => { e with periodBytes := e.periodBytes + len }) s).cls.flows := by
                unfold chargeUrgent
                dsimp only
                rw [stampUrgent_keeps station _ .cls (by decide)]
                rfl
              dsimp only
              rw [hcharge]
              exact modFlow_thins (f := fun e => { e with periodBytes := e.periodBytes + len }) (fun _ => ⟨rfl, rfl⟩) i s
            · exact .refl _
          · exact modFlow_thins (f := fun e => { e with overFlag := true }) (fun _ => ⟨rfl, rfl⟩) i s

theorem FlowInv.classifyStep (hs : FlowInv s) (d : Descriptor) (cap : Option Capture) (station : Option (Fin 128)) (noUrgent unresolved : Bool) :
    FlowInv (classifyStep d cap station noUrgent unresolved s).state := by
  have hlearnt : FlowInv { s with cls := (classify cap d.len s.now station s.cls).2 } :=
    (flowInv_iff _).2 (((flowInv_iff s).1 hs).classify cap d.len s.now station)
  exact (hlearnt.thin (admission_thins _ _ _ _ _ _)).keep (forwardDescriptor_keeps _ _ _ _ _ _) (by decide)

theorem FlowInv.decide5 (hs : FlowInv s) (d : Descriptor) : FlowInv (decide5 d s).state := by
  unfold Machine.decide5
  split
  · exact hs.classifyStep _ _ _ _ _
  · next cap c _ =>
    have hc : FlowInv { s with capture := c } := hs.same rfl
    unfold stationStep
    split
    · exact hc.classifyStep _ _ _ _ _
    · split
      · exact hc.classifyStep _ _ _ _ _
      · unfold gateStep
        split
        · exact hc.keep (discardDescriptor_keeps _ _ _ _) (by decide)
        · unfold handoffStep
          split
          · dsimp only
            split
            · exact (hc.keep (parkRequest_keeps _ _ _ _ _) (by decide)).keep (parkDescriptor_keeps _ _ _) (by decide)
            · exact (hc.keep (parkRequest_keeps _ _ _ _ _) (by decide)).keep (discardDescriptor_keeps _ _ _ _) (by decide)
          · exact hc.classifyStep _ _ _ _ _

theorem FlowInv.descriptorDisposition (hs : FlowInv s) : FlowInv (descriptorDisposition s) := by
  unfold Machine.descriptorDisposition
  split
  · exact hs
  · split
    · exact hs
    · exact (FlowInv.decide5 (s := dropHeld s) (hs.same rfl) _).keep (releaseRewritten_keeps _ _ _) (by decide)

theorem FlowInv.flowAging (hs : FlowInv s) : FlowInv (flowAging s) := by
  unfold Machine.flowAging
  split
  · exact hs.thin (thinned_remove _ _)
  · exact hs

theorem FlowInv.pacingBoundary (hs : FlowInv s) : FlowInv (pacingBoundary s) := by
  have hdemote {u : State} (hu : FlowInv u) : FlowInv (demoteFlows u) := by
    have hstep (a : Flow) (n : Nat) : (Flow.stepOver n a).key = a.key ∧ (Flow.stepOver n a).pinned = a.pinned := by
      unfold Flow.stepOver
      split <;> exact ⟨rfl, rfl⟩
    exact FlowInv.keep (hu.thin (t := { u with cls := _, adm := _ }) (thinned_map (fun a => hstep a _) _)) (offerAll_keeps _ _) (by decide)
  unfold Machine.pacingBoundary
  split
  · have hclear {u : State} (hu : FlowInv u) : FlowInv (clearPeriod u) :=
      hu.thin (thinned_map (f := fun e => { e with periodBytes := 0, overFlag := false }) (fun _ => ⟨rfl, rfl⟩) _)
    refine FlowInv.keep (hclear (hdemote ?_)) (keeps_adm _ _) (by decide)
    exact (hs.keep (keeps_adm _ s) (by decide)).keep (applyStaged_keeps _) (by decide)
  · exact hs

theorem FlowInv.removeStation (hs : FlowInv s) (i : Fin 128) : FlowInv { s with cls := removeStationFlows i s.cls } :=
  hs.thin (thinned_remove _ _)

theorem FlowInv.clearStep (hs : FlowInv s) : FlowInv (clearStep s) := by
  unfold Machine.clearStep
  split
  · split
    · exact hs
    · exact (hs.removeStation _).keep (setExecuting_keeps _ _) (by decide)
  · split
    · exact hs
    · exact ((hs.removeStation _).keep (keeps_sta _ _) (by decide)).keep (completeCommand_keeps _ _ _) (by decide)
  all_goals exact hs

theorem FlowInv.runCommand (hs : FlowInv s) (code : Nat) {owner : List Byte → State → State} (h : ∀ p, FlowInv (owner p s)) :
    FlowInv (runCommand code owner s) := by
  obtain he | ⟨-, -, c, -, -, he | he⟩ := runCommand_cases code owner s <;> rw [he]
  · exact hs
  · exact hs.keep (completeCommand_keeps _ _ s) (by decide)
  · exact h _

theorem FlowInv.stationClear (hs : FlowInv s) (p : List Byte) : FlowInv (stationClear p s) := by
  unfold Machine.stationClear
  split
  · exact hs.keep (completeCommand_keeps _ _ s) (by decide)
  · split
    · exact hs.keep (completeCommand_keeps _ _ s) (by decide)
    · split
      · exact (hs.keep (setExecuting_keeps _ s) (by decide)).keep (takeRelease_keeps _ _ _ _ _ _) (by decide)
      · exact (hs.removeStation _).keep (setExecuting_keeps _ _) (by decide)

theorem handoffEnd_flows (p : List Byte) (s : State) : (handoffEnd p s).cls = s.cls := by
  unfold handoffEnd
  split
  · split
    · exact completeCommand_cls _ _ s
    · split
      · exact completeCommand_cls _ _ s
      · exact takeRelease_keeps _ _ _ _ _ _ .cls (by decide)
  · exact completeCommand_cls _ _ s

theorem clearSection_flows (sec : Nat) (s : State) :
    (clearSection sec s).cls.flows = s.cls.flows ∧ (clearSection sec s).capture.records = s.capture.records := by
  unfold clearSection
  split
  · exact ⟨rfl, rfl⟩
  · split
    · exact ⟨rfl, rfl⟩
    · split
      · exact ⟨rfl, rfl⟩
      · have hkeep : KeepsAllBut [.sta] s (clearStations sec s) := foldl_keeps (fun u i => keeps_sta _ u) _ s
        exact ⟨by rw [hkeep .cls (by decide)], by rw [hkeep .capture (by decide)]⟩

theorem stats_flows (p : List Byte) (s : State) :
    (stats p s).cls.flows = s.cls.flows ∧ (stats p s).capture.records = s.capture.records := by
  have hcomplete : (completeCommand .refusedRange [] s).cls.flows = s.cls.flows ∧
      (completeCommand .refusedRange [] s).capture.records = s.capture.records :=
    ⟨by rw [completeCommand_cls], by rw [completeCommand_capture]⟩
  have hclear (clear : Bool) (u : State) : (if clear then clearSection (param1 p 0) u else u).cls.flows = u.cls.flows ∧
      (if clear then clearSection (param1 p 0) u else u).capture.records = u.capture.records := by
    split
    · exact clearSection_flows _ u
    · exact ⟨rfl, rfl⟩
  have hrequests (ws : List OwnWrite) (u : State) : KeepsAllBut [.own] u (ws.foldl (fun s w => request w s) u) :=
    foldl_keeps (fun u w => keeps_own _ u) ws u
  unfold stats
  split
  · exact hcomplete
  · split
    · unfold takeSection setExecuting
      dsimp only
      refine ⟨?_, ?_⟩
      · rw [hrequests _ _ .cls (by decide), (hclear _ _).1]
      · rw [hrequests _ _ .capture (by decide), (hclear _ _).2]
    · exact hcomplete

theorem FlowInv.flowPin (hs : FlowInv s) (p : List Byte) : FlowInv (flowPin p s).state := by
  have hok := (flowInv_iff s).1 hs
  unfold Machine.flowPin
  dsimp only
  split
  · exact hs
  · next cls allowance _ =>
    split
    · next i hi =>
      split
      · exact hs
      · next e he =>
        split
        · exact hs
        · next hfull =>
          rw [flowInv_iff]
          cases hp : e.pinned with
          | true => exact hok.thin (thinned_vput he rfl fun _ => hp)
          | false =>
            refine hok.put (fun j a hj ha hk => hj (hok.keys j i a e ha he hk)) fun _ => ?_
            rw [hp, Bool.not_false, Bool.true_and, decide_eq_true_iff, Nat.not_le] at hfull
            exact hfull
    · next hn =>
      split
      · exact hs
      · next hfull =>
        split
        · exact hs
        · next i c hc => exact (flowInv_iff _).2 (hok.enter (e := pinnedFlow _ _ _ _) hn hc fun _ => Nat.not_le.1 hfull)

theorem FlowInv.flowPromote (hs : FlowInv s) (p : List Byte) : FlowInv (flowPromote p s).state := by
  unfold Machine.flowPromote
  split
  · exact hs
  · split
    · exact hs
    · next e he =>
      split
      · exact hs.thin (thinned_vput he rfl id)
      · exact hs

theorem FlowInv.atOnce (hs : FlowInv s) {c : Instr} {a : AtOnce} (ha : atOnceOf c = some a) (p : List Byte) : FlowInv (a.owner p s).state := by
  by_cases hb : Block.cls ∈ a.parts
  · cases c with
    | ruleSet =>
      cases ha
      refine hs.same ?_
      dsimp only [ruleSet]
      split <;> rfl
    | ruleClear =>
      cases ha
      refine hs.same ?_
      dsimp only [ruleClear]
      split <;> rfl
    | flowPin => cases ha; exact hs.flowPin p
    | flowUnpin =>
      cases ha
      dsimp only [flowUnpin]
      split
      · exact hs
      · exact hs.thin (thinned_vmod (f := fun e => { e with pinned := false }) (fun _ => rfl) (fun _ h => absurd h Bool.false_ne_true) _ _)
    | flowPromote => cases ha; exact hs.flowPromote p
    | flowFlush => cases ha; exact hs.thin (thinned_remove _ _)
    | _ => first | (cases ha; exact absurd hb (of_decide_eq_false rfl)) | exact absurd ha nofun
  · obtain ⟨rs, hr⟩ := a.spec p s
    exact hs.keep hr.keeps fun hm => (List.mem_append.1 hm).elim hb (by decide)

theorem flowInv_initial (h : s.cls = Classifier.initial) : FlowInv s := by
  have hnone (i : Fin 256) : s.cls.flows[i] = none := by rw [h]; simp [Classifier.initial]
  refine (flowInv_iff s).2 ⟨fun i j a b ha => ?_, ?_⟩
  · rw [hnone] at ha; cases ha
  · have hzero : pinnedCount s.cls.flows = 0 := List.countP_eq_zero.2 fun o ho => by
      obtain ⟨j, hj, rfl⟩ := List.mem_iff_getElem.1 ho
      have hj' : j < 256 := by simpa using hj
      rw [show s.cls.flows.toList[j] = none from hnone ⟨j, hj'⟩]
      exact Bool.false_ne_true
    omega

theorem FlowInv.exec {c : Instr} (hs : FlowInv s) (h : exec c s = .next t) : FlowInv t := by
  by_cases hb : Block.cls ∈ touched c
  · cases ha : atOnceOf c with
    | some a =>
      rw [exec_atOnce ha] at h
      cases h
      exact hs.runCommand a.code fun p => (hs.atOnce ha p).keep (completeCommand_keeps _ _ _) (by decide)
    | none =>
      cases c with
      | powerOnReset =>
        cases h
        unfold powerOnReset
        split
        · exact hs
        · exact flowInv_initial rfl
      | warmReset =>
        cases h
        unfold warmReset
        split
        · exact hs
        · exact flowInv_initial rfl
      | descriptorDisposition => cases h; exact hs.descriptorDisposition
      | flowAging => cases h; exact hs.flowAging
      | pacingPeriodBoundary => cases h; exact hs.pacingBoundary
      | stationClear =>
        cases h
        split
        · exact hs.runCommand 0x06 hs.stationClear
        · exact hs.clearStep
      | handoffEnd => cases h; exact hs.runCommand 0x1B fun p => hs.same (by rw [handoffEnd_flows])
      | stats => cases h; exact hs.runCommand 0x20 fun p => hs.same (stats_flows p s).1
      | _ => first | exact absurd hb (of_decide_eq_false rfl) | exact absurd ha nofun
  · exact hs.keep (exec_keeps h) hb

/-! ### The Capture Buffer (R25, R26) -/

/-- At most 256 records, and no two of one key. -/
def CapturesOk (rs : List Capture) : Prop := rs.length ≤ 256 ∧ (rs.map Capture.key).Nodup

theorem captureInv_iff (s : State) : CaptureInv s ↔ CapturesOk s.capture.records := Iff.rfl

theorem CapturesOk.sublist {rs qs : List Capture} (h : CapturesOk rs) (hq : qs.Sublist rs) : CapturesOk qs :=
  ⟨hq.length_le.trans h.1, h.2.sublist (hq.map _)⟩

theorem dropCapture_sublist (key : Nat) (c : CaptureUnit) : (dropCapture key c).records.Sublist c.records := by
  unfold dropCapture
  split
  · exact List.filter_sublist
  · exact .refl _

theorem dropCapture_absent (key : Nat) (c : CaptureUnit) : ∀ r ∈ (dropCapture key c).records, r.key ≠ key := by
  intro r hr hk
  unfold dropCapture at hr
  split at hr
  · exact absurd hk (by simpa using (List.mem_filter.1 hr).2)
  · next h => exact h (List.any_eq_true.2 ⟨r, hr, beq_iff_eq.2 hk⟩)

theorem evictCapture_room (c : CaptureUnit) (hc : c.records.length ≤ 256) :
    (evictCapture c).records.Sublist c.records ∧ (evictCapture c).records.length < 256 := by
  unfold evictCapture
  split
  · next h =>
    have h256 : 256 ≤ c.records.length := h
    refine ⟨List.tail_sublist _, ?_⟩
    rw [List.length_tail]
    omega
  · next h => exact ⟨.refl _, Nat.not_le.1 h⟩

theorem CapturesOk.enter {c : CaptureUnit} (hc : CapturesOk c.records) (r : Capture) : CapturesOk (enterCapture r c).records := by
  have hdrop := hc.sublist (dropCapture_sublist r.key c)
  obtain ⟨hsub, hlt⟩ := evictCapture_room (dropCapture r.key c) hdrop.1
  refine ⟨?_, ?_⟩
  · rw [enterCapture, List.length_append, List.length_singleton]
    exact hlt
  · rw [enterCapture, List.map_append, List.map_singleton]
    refine List.nodup_append.2 ⟨(hdrop.sublist hsub).2, List.nodup_singleton _, fun a ha b hb => ?_⟩
    obtain ⟨q, hq, rfl⟩ := List.mem_map.1 ha
    rw [List.mem_singleton.1 hb]
    exact dropCapture_absent r.key c q (hsub.subset hq)

theorem CapturesOk.frame {c : CaptureUnit} (hc : CapturesOk c.records) (key now : Nat) (d : List Lane) :
    CapturesOk (captureFrame key now d c).records := by
  unfold captureFrame
  dsimp only
  split
  · exact hc.sublist (dropCapture_sublist key c)
  · exact hc.enter _

theorem CaptureInv.keep {bs : List Block} (hs : CaptureInv s) (h : KeepsAllBut bs s t) (hb : Block.capture ∉ bs) : CaptureInv t := by
  rw [captureInv_iff] at hs ⊢
  rw [h .capture hb]
  exact hs

theorem CaptureInv.receive (hs : CaptureInv s) (wanted : Reception → Bool) (tag : Nat) (d : List Lane) : CaptureInv (receive wanted tag d s) := by
  obtain h | ⟨w, -, h⟩ := receive_cases wanted tag d s <;> rw [h]
  · exact hs
  · cases hk : receptionOf s.img w d with
    | frameStart =>
      refine CaptureInv.keep (s := { s with capture := _ }) ?_ (passWrite_keeps _ _ _) (by decide)
      exact CapturesOk.frame hs _ _ _
    | _ => exact hs.keep (receiveAs_keeps _ w d s) (by decide)

theorem CaptureInv.decide5 (hs : CaptureInv s) (d : Descriptor) : CaptureInv (decide5 d s).state := by
  unfold Machine.decide5
  split
  · exact hs.keep (classifyStep_keeps _ _ _ _ _ s) (by decide)
  · next cap c hc =>
    have hconsumed : CaptureInv { s with capture := c } := by
      unfold consume at hc
      split at hc
      · cases hc
      · cases hc; exact CapturesOk.sublist hs List.filter_sublist
    unfold stationStep
    split
    · exact hconsumed.keep (classifyStep_keeps _ _ _ _ _ _) (by decide)
    · split
      · exact hconsumed.keep (classifyStep_keeps _ _ _ _ _ _) (by decide)
      · exact hconsumed.keep (gateStep_keeps _ _ _ _ _) (by decide)

theorem CaptureInv.descriptorDisposition (hs : CaptureInv s) : CaptureInv (descriptorDisposition s) := by
  unfold Machine.descriptorDisposition
  split
  · exact hs
  · split
    · exact hs
    · exact (CaptureInv.decide5 (s := dropHeld s) (hs.keep (dropHeld_keeps s) (by decide)) _).keep (releaseRewritten_keeps _ _ _) (by decide)

theorem CaptureInv.exec {c : Instr} (hs : CaptureInv s) (h : exec c s = .next t) : CaptureInv t := by
  by_cases hb : Block.capture ∈ touched c
  · cases c with
    | powerOnReset =>
      cases h
      unfold powerOnReset
      split
      · exact hs
      · exact ⟨Nat.zero_le _, List.nodup_nil⟩
    | warmReset =>
      cases h
      unfold warmReset
      split
      · exact hs
      · exact ⟨Nat.zero_le _, List.nodup_nil⟩
    | upstreamWriteReceived tag d => cases h; exact hs.receive _ tag d
    | frameStartWrite tag d => cases h; exact hs.receive _ tag d
    | peerRecord tag d => cases h; exact hs.receive _ tag d
    | commandCapture tag d => cases h; exact hs.receive _ tag d
    | tailWordWrite tag d => cases h; exact hs.receive _ tag d
    | stagingWriteTracked tag d => cases h; exact hs.receive _ tag d
    | descriptorDisposition => cases h; exact hs.descriptorDisposition
    | stats =>
      cases h
      obtain he | ⟨-, -, c, -, -, he | he⟩ := runCommand_cases 0x20 Machine.stats s <;> rw [he]
      · exact hs
      · exact hs.keep (completeCommand_keeps _ _ s) (by decide)
      · rw [captureInv_iff, (stats_flows _ s).2]
        exact hs
    | _ => exact absurd hb (of_decide_eq_false rfl)
  · exact hs.keep (exec_keeps h) hb

end FlowEvents

end Sys2Proof.Machine

/-! SUPPORT. The clocks (R39, R40, R61, R82, R83): `ClockInv.exec`, and the obligation O60. -/

namespace Sys2Proof.Machine

open Sys2Proof

/-! ### The clocks, block by block -/

/-- The clock of week in its ranges. -/
def WeekOk (c : Clock) : Prop := c.minute < 10080 ∧ c.second < 60 ∧ c.presc < 1024

/-- Uptime in its ranges. -/
def UptimeOk (t : Uptime) : Prop := t.presc < 1024 ∧ t.secs < 4294967296

/-- The pacing period in its ranges. -/
def PeriodOk (a : Admission) : Prop :=
  PacingOk a.params ∧ (a.pending = true → PacingOk a.staged) ∧ a.ticks < a.params.period ∧ (a.boundaryDue = true → a.ticks = 0)

section Clocks

variable {s t u : State}

theorem clockInv_iff (s : State) :
    ClockInv s ↔ WeekOk s.sched.clock ∧ UptimeOk s.time ∧ s.sched.line.run ≤ 32 ∧ PeriodOk s.adm := by
  simp only [ClockInv, WeekOk, UptimeOk, PeriodOk, and_assoc]

/-- The clock of week and the line filter of the Schedule Unit are the same in two states. -/
def SameWeek (s t : State) : Prop := t.sched.clock = s.sched.clock ∧ t.sched.line = s.sched.line

theorem SameWeek.refl (s : State) : SameWeek s s := ⟨rfl, rfl⟩

theorem SameWeek.trans (h : SameWeek s t) (h' : SameWeek t u) : SameWeek s u := ⟨h'.1.trans h.1, h'.2.trans h.2⟩

theorem SameWeek.keep {bs : List Block} (h : KeepsAllBut bs s t) (hb : Block.sched ∉ bs) : SameWeek s t := by
  have hs : t.sched = s.sched := h .sched hb
  exact ⟨by rw [hs], by rw [hs]⟩

/-- The eight steps stand at the new minute throughout (Table 3.3). -/
theorem boundarySteps_week (s : State) : SameWeek s (boundarySteps s) := by
  have hmap (f : Station → Station) (u : State) : SameWeek u (mapStations f u) := .keep (mapStations_keeps f u) (by decide)
  have hroll (u : State) : SameWeek u (if s.sched.clock.rollsOver then rollover u else u) := by
    split
    · exact (hmap _ u).trans (.keep (keeps_sta _ _) (by decide))
    · exact .refl u
  have hcommit (u : State) : SameWeek u (applyCommit u) := by
    unfold applyCommit
    split
    · exact .refl u
    · have hset (x : Vector SchedProfile 16) : SameWeek u { u with sched := { u.sched with active := x, commit := none } } := ⟨rfl, rfl⟩
      exact ((hset _).trans (hmap _ _)).trans (.keep (offer_keeps _ _) (by decide))
  have hcheck (u : State) : SameWeek u (checkActivation u) := by
    unfold checkActivation
    split
    · exact .keep (.append (keeps_img _ u) (offer_keeps _ _)) (by decide)
    · exact .refl u
  have hwarn (u : State) : SameWeek u (warnLow u) := (hmap _ u).trans (.keep (offerAll_keeps _ _) (by decide))
  exact ((((((((hmap (countMinute _ _) s).trans (hmap (setAllowance _ _) _)).trans (hwarn _)).trans (hroll _)).trans (hcommit _)).trans
    (hmap _ _)).trans (hcheck _)).trans (.keep (offerAll_keeps _ _) (by decide)))

theorem WeekOk.nextMinute {c : Clock} (h : WeekOk c) : WeekOk c.nextMinute := ⟨Nat.mod_lt _ (by decide), (by decide : 0 < 60), h.2.2⟩

theorem takeBoundary_week (s : State) :
    (takeBoundary s).sched.clock = s.sched.clock.nextMinute ∧ (takeBoundary s).sched.line = s.sched.line := boundarySteps_week _

theorem minuteBoundary_week (hs : WeekOk s.sched.clock) :
    WeekOk (minuteBoundary s).sched.clock ∧ (minuteBoundary s).sched.line = s.sched.line := by
  unfold minuteBoundary
  split
  · split
    · unfold boundaryInReset
      dsimp only
      split <;> exact ⟨hs.nextMinute, rfl⟩
    · obtain ⟨hc, hl⟩ := takeBoundary_week s
      exact ⟨hc ▸ hs.nextMinute, hl⟩
  · exact ⟨hs, rfl⟩

theorem lineEdge_week (hs : WeekOk s.sched.clock) (hr : s.sched.line.run ≤ 32) :
    WeekOk (lineEdge s).sched.clock ∧ (lineEdge s).sched.line.run ≤ 32 := by
  have hpause (v : Bool) (u : State) : SameWeek u (pauseEdge v u) :=
    .trans (.keep (mapStations_keeps _ u) (by decide)) (.trans (.keep (offer_keeps _ _) (by decide)) (.keep (offerAll_keeps _ _) (by decide)))
  have hsync {u : State} (hu : WeekOk u.sched.clock) : WeekOk (syncEdge u).sched.clock ∧ (syncEdge u).sched.line = u.sched.line := by
    obtain ⟨hm, hsec, -⟩ := hu
    unfold syncEdge
    dsimp only
    split
    · obtain ⟨hc, hl⟩ := takeBoundary_week (setClock { u.sched.clock with presc := 0 } (offer (.lineEvent .syncForward u.sched.clock.second) u))
      rw [hc, hl]
      refine ⟨WeekOk.nextMinute ⟨hm, hsec, (by decide : 0 < 1024)⟩, ?_⟩
      exact (SameWeek.keep (offer_keeps _ u) (by decide)).2
    · obtain ⟨hc, hl⟩ := SameWeek.keep (offer_keeps (.lineEvent .syncBack u.sched.clock.second)
        (setClock { u.sched.clock with presc := 0, second := 0 } u)) (by decide)
      rw [hc, hl]
      exact ⟨⟨hm, (by decide : 0 < 60), (by decide : 0 < 1024)⟩, rfl⟩
  have hof {u v : State} (hv : SameWeek u v) (hc : u.sched.clock = s.sched.clock) (hl : u.sched.line.run = 0) :
      WeekOk v.sched.clock ∧ v.sched.line.run ≤ 32 := by
    rw [hv.1, hv.2, hc, hl]
    exact ⟨hs, by decide⟩
  unfold lineEdge
  dsimp only
  split
  · split
    · exact hof (.refl _) rfl rfl
    · split
      · exact hof (hpause _ _) rfl rfl
      · split
        · exact hof (hpause _ _) rfl rfl
        · exact hof (.keep (offer_keeps _ _) (by decide)) rfl rfl
    · split
      · obtain ⟨hc, hl⟩ := hsync (u := { s with sched := { s.sched with line := { s.sched.line with level := !s.sched.line.level, run := 0 } } }) hs
        rw [hl]
        exact ⟨hc, Nat.zero_le _⟩
      · exact hof (.refl _) rfl rfl
  · exact ⟨hs, hr⟩

/-! ### Ticks (R39, R40, R61, R82) -/

theorem tickUptime_ok {x : Uptime} (h : UptimeOk x) : UptimeOk (tickUptime x) := by
  unfold tickUptime
  split
  · next hlt => exact ⟨by dsimp only; omega, h.2⟩
  · exact ⟨(by decide : 0 < 1024), h.2⟩

theorem tickClock_ok {x : Schedule} (h : WeekOk x.clock) : WeekOk (tickClock x).clock ∧ (tickClock x).line = x.line := by
  obtain ⟨hm, hsec, hp⟩ := h
  unfold tickClock
  split
  · next hlt => exact ⟨⟨hm, hsec, by dsimp only; omega⟩, rfl⟩
  · split
    · next hlt => exact ⟨⟨hm, by dsimp only; omega, (by decide : 0 < 1024)⟩, rfl⟩
    · exact ⟨⟨hm, hsec, (by decide : 0 < 1024)⟩, rfl⟩

theorem tickPacing_ok {a : Admission} (h : PeriodOk a) (hd : a.boundaryDue = false) : PeriodOk (tickPacing a) := by
  obtain ⟨hp, hst, ht, -⟩ := h
  unfold tickPacing
  split
  · next hlt => exact ⟨hp, hst, hlt, fun h => absurd (hd.symm.trans h) Bool.false_ne_true⟩
  · exact ⟨hp, hst, hp.1, fun _ => rfl⟩

theorem ClockInv.tick (hs : ClockInv s) (lineIn : Bool) : ClockInv (tick lineIn s) := by
  have hs' := hs
  rw [clockInv_iff] at hs' ⊢
  obtain ⟨hw, hu, hl, hp⟩ := hs'
  unfold Machine.tick
  split
  · exact ⟨hw, hu, hl, hp⟩
  · next hbusy =>
    obtain ⟨hclock, hline⟩ := tickClock_ok hw
    split
    · exact ⟨hclock, hu, hline ▸ hl, hp⟩
    · simp only [tickBusy, Bool.or_eq_true, not_or, Bool.not_eq_true, beq_eq_false_iff_ne] at hbusy
      obtain ⟨-, ⟨⟨⟨-, -⟩, hdue⟩, hrun⟩, -⟩ := hbusy
      refine ⟨hclock, tickUptime_ok hu, ?_, tickPacing_ok hp hdue⟩
      dsimp only [tickLine]
      split
      · exact Nat.zero_le _
      · dsimp only; omega

theorem ClockInv.uptimeSecond (hs : ClockInv s) : ClockInv (uptimeSecond s) := by
  have hs' := hs
  rw [clockInv_iff] at hs' ⊢
  obtain ⟨hw, hu, hl, hp⟩ := hs'
  unfold Machine.uptimeSecond
  split
  · exact ⟨hw, ⟨hu.1, Nat.mod_lt _ (by decide)⟩, hl, hp⟩
  · exact ⟨hw, hu, hl, hp⟩

/-! ### Pacing (R83, R93 to R95) -/

theorem PeriodOk.same {a b : Admission} (h : PeriodOk a) (ht : b.ticks = a.ticks) (hd : b.boundaryDue = a.boundaryDue)
    (hp : b.params = a.params) (hst : b.staged = a.staged) (hpend : b.pending = a.pending) : PeriodOk b := by
  unfold PeriodOk at h ⊢
  rw [ht, hd, hp, hst, hpend]
  exact h

theorem applyStaged_period (hs : PeriodOk s.adm) (ht : s.adm.ticks = 0) : PeriodOk (applyStaged s).adm := by
  have hslots {u : State} (rs : List Report) (v : Vector AdmSlot 16) (hu : PeriodOk u.adm) :
      PeriodOk (offerAll rs { u with adm := { u.adm with slots := v } }).adm := by
    rw [offerAll_adm]
    exact hu.same rfl rfl rfl rfl rfl
  unfold applyStaged
  dsimp only
  split
  · next hpend =>
    refine hslots _ _ ?_
    rw [offer_adm]
    have hst := hs.2.1 hpend
    refine ⟨hst, fun h => absurd h Bool.false_ne_true, ?_, fun _ => ht⟩
    dsimp only
    rw [ht]
    exact hst.1
  · exact hslots _ _ hs

theorem pacingBoundary_period (hs : PeriodOk s.adm) : PeriodOk (pacingBoundary s).adm := by
  unfold pacingBoundary
  split
  · next hdue =>
    obtain ⟨hp, hst, hlt, hz⟩ := hs
    have hcleared : PeriodOk { s.adm with boundaryDue := false } := ⟨hp, hst, hlt, fun h => absurd h Bool.false_ne_true⟩
    have happlied := applyStaged_period (s := { s with adm := { s.adm with boundaryDue := false } }) hcleared (hz hdue)
    have hdemoted (u : State) (hu : PeriodOk u.adm) : PeriodOk (demoteFlows u).adm := by
      unfold demoteFlows
      dsimp only
      rw [offerAll_adm]
      exact hu.same rfl rfl rfl rfl rfl
    have hlast {u : State} (hu : PeriodOk u.adm) : PeriodOk (carryActivity (clearPeriod u)).adm :=
      hu.same rfl rfl rfl rfl rfl
    exact hlast (hdemoted _ happlied)
  · exact hs

theorem descriptorDisposition_period (hs : PeriodOk s.adm) : PeriodOk (descriptorDisposition s).adm := by
  have hsame {u v : State} (h : v.adm = u.adm) (hu : PeriodOk u.adm) : PeriodOk v.adm := by rw [h]; exact hu
  have hclassify (d : Descriptor) (cap : Option Capture) (station : Option (Fin 128)) (noUrgent unresolved : Bool) (u : State)
      (hu : PeriodOk u.adm) : PeriodOk (classifyStep d cap station noUrgent unresolved u).state.adm := by
    refine hsame (forwardDescriptor_keeps _ _ _ _ _ _ .adm (by decide)) ?_
    unfold admission
    split
    · exact hu
    · exact hu
    · exact hu
    · split
      · exact hu
      · split
        · exact hu
        · unfold admitUrgent
          split
          · exact hu.same rfl rfl rfl rfl rfl
          · split
            · split
              · unfold chargeUrgent
                dsimp only
                rw [stampUrgent_keeps _ _ .adm (by decide)]
                exact hu.same rfl rfl rfl rfl rfl
              · exact hu.same rfl rfl rfl rfl rfl
            · exact hu.same rfl rfl rfl rfl rfl
  unfold descriptorDisposition
  split
  · exact hs
  · split
    · exact hs
    · refine hsame (releaseRewritten_keeps _ _ _ .adm (by decide)) ?_
      unfold decide5
      split
      · exact hclassify _ _ _ _ _ _ hs
      · unfold stationStep
        split
        · exact hclassify _ _ _ _ _ _ hs
        · split
          · exact hclassify _ _ _ _ _ _ hs
          · unfold gateStep
            split
            · exact hsame (discardDescriptor_keeps _ _ _ _ .adm (by decide)) hs
            · unfold handoffStep
              split
              · dsimp only
                split
                · exact hsame (((parkRequest_keeps _ _ _ _ _).append (parkDescriptor_keeps _ _ _)) .adm (by decide)) hs
                · exact hsame (((parkRequest_keeps _ _ _ _ _).append (discardDescriptor_keeps _ _ _ _)) .adm (by decide)) hs
              · exact hclassify _ _ _ _ _ _ hs

/-! ### Commands -/

theorem pacingSet_period (hs : PeriodOk s.adm) (p : List Byte) : PeriodOk (pacingSet p s).state.adm := by
  obtain ⟨hp, hst, hlt, hz⟩ := hs
  unfold pacingSet
  dsimp only
  split
  · next hq =>
    split
    · exact ⟨hp, hst, hlt, hz⟩
    · exact ⟨hp, fun _ => hq, hlt, hz⟩
  · exact ⟨hp, hst, hlt, hz⟩

theorem capSet_period (hs : PeriodOk s.adm) (p : List Byte) : PeriodOk (capSet p s).state.adm := by
  unfold capSet
  dsimp only
  split
  · exact hs
  · split
    · exact hs
    · split
      · exact hs
      · exact hs.same rfl rfl rfl rfl rfl

theorem timeSet_week (hs : WeekOk s.sched.clock) (p : List Byte) :
    WeekOk (timeSet p s).state.sched.clock ∧ (timeSet p s).state.sched.line = s.sched.line := by
  unfold timeSet
  dsimp only
  split
  · next h =>
    have hroll (c : Bool) (u : State) : SameWeek u (if c then rollover u else u) := by
      split
      · exact .keep (.append (mapStations_keeps _ u) (keeps_sta _ _)) (by decide)
      · exact .refl u
    let u : State := { s with sched := { s.sched with clock := ⟨param2 p 0, param1 p 2, 0, true⟩, minuteDue := false } }
    have hset : WeekOk u.sched.clock := ⟨Nat.lt_succ_of_le h.1, Nat.lt_succ_of_le h.2, (by decide : 0 < 1024)⟩
    have hrest (c : Bool) : SameWeek u (reportGates .timeSet s.sta.stations
        (evaluateAll (if c then rollover (mapStations (fun st => { st with active := false }) u)
          else mapStations (fun st => { st with active := false }) u))) :=
      ((SameWeek.keep (mapStations_keeps _ u) (by decide)).trans (hroll c _)).trans
        ((SameWeek.keep (mapStations_keeps _ _) (by decide)).trans (.keep (offerAll_keeps _ _) (by decide)))
    obtain ⟨hc, hl⟩ := hrest (!s.sched.clock.isSet || s.sched.clock.day != u.sched.clock.day)
    exact ⟨hc.symm ▸ hset, hl⟩
  · exact ⟨hs, rfl⟩

theorem lineSet_week (p : List Byte) (s : State) :
    (lineSet p s).state.sched.clock = s.sched.clock ∧ (lineSet p s).state.sched.line.run = s.sched.line.run := by
  unfold lineSet
  split <;> exact ⟨rfl, rfl⟩

theorem staging_week (p : List Byte) (s : State) :
    SameWeek s (scheduleStage p s).state ∧ SameWeek s (allowanceStage p s).state ∧ SameWeek s (scheduleCommit p s).state := by
  refine ⟨?_, ?_, ?_⟩
  · unfold scheduleStage
    split
    · split <;> exact ⟨rfl, rfl⟩
    · exact .refl s
  · unfold allowanceStage
    split
    · split
      · split <;> exact ⟨rfl, rfl⟩
      · exact .refl s
    · exact .refl s
  · unfold scheduleCommit
    split
    · exact .refl s
    · split <;> exact ⟨rfl, rfl⟩

/-- What the ranges of the clocks depend on. -/
theorem ClockInv.of_parts (hs : ClockInv s) (hweek : WeekOk s.sched.clock → s.sched.line.run ≤ 32 → WeekOk t.sched.clock ∧ t.sched.line.run ≤ 32)
    (htime : UptimeOk s.time → UptimeOk t.time) (hadm : PeriodOk s.adm → PeriodOk t.adm) : ClockInv t := by
  rw [clockInv_iff] at hs ⊢
  obtain ⟨hw, hu, hl, hp⟩ := hs
  obtain ⟨hw', hl'⟩ := hweek hw hl
  exact ⟨hw', htime hu, hl', hadm hp⟩

theorem ClockInv.same (hs : ClockInv s) (h : SameWeek s t) (ht : t.time = s.time) (ha : PeriodOk s.adm → PeriodOk t.adm) : ClockInv t :=
  hs.of_parts (fun hw hl => by rw [h.1, h.2]; exact ⟨hw, hl⟩) (fun hu => ht ▸ hu) ha

theorem ClockInv.keep {bs : List Block} (hs : ClockInv s) (h : KeepsAllBut bs s t) (hb : Block.sched ∉ bs ∧ Block.time ∉ bs ∧ Block.adm ∉ bs) :
    ClockInv t := hs.same (.keep h hb.1) (h .time hb.2.1) fun hp => by rw [h .adm hb.2.2]; exact hp

theorem ClockInv.atOnce (hs : ClockInv s) {c : Instr} {a : AtOnce} (ha : atOnceOf c = some a) (p : List Byte) : ClockInv (a.owner p s).state := by
  have htime := atOnce_time ha p s
  obtain ⟨rs, hr⟩ := a.spec p s
  have hweek (h : Block.sched ∉ a.parts) : SameWeek s (a.owner p s).state :=
    .keep hr.keeps fun hm => (List.mem_append.1 hm).elim h (by decide)
  have hadm (h : Block.adm ∉ a.parts) : PeriodOk s.adm → PeriodOk (a.owner p s).state.adm := fun hp => by
    rw [hr.keeps .adm fun hm => (List.mem_append.1 hm).elim h (by decide)]
    exact hp
  obtain ⟨hstage, hallow, hcommit⟩ := staging_week p s
  by_cases hb : Block.sched ∉ a.parts ∧ Block.adm ∉ a.parts
  · exact hs.same (hweek hb.1) htime (hadm hb.2)
  · cases c with
    | pacingSet => cases ha; exact hs.same (hweek (of_decide_eq_false rfl)) htime fun hp => pacingSet_period hp p
    | capSet => cases ha; exact hs.same (hweek (of_decide_eq_false rfl)) htime fun hp => capSet_period hp p
    | timeSet =>
      cases ha
      refine hs.of_parts (fun hw hl => ?_) (fun hu => htime ▸ hu) (hadm (of_decide_eq_false rfl))
      obtain ⟨hc, hline⟩ := timeSet_week hw p
      exact ⟨hc, hline.symm ▸ hl⟩
    | scheduleStage => cases ha; exact hs.same hstage htime (hadm (of_decide_eq_false rfl))
    | allowanceStage => cases ha; exact hs.same hallow htime (hadm (of_decide_eq_false rfl))
    | scheduleCommit => cases ha; exact hs.same hcommit htime (hadm (of_decide_eq_false rfl))
    | lineSet =>
      cases ha
      obtain ⟨hc, hrun⟩ := lineSet_week p s
      exact hs.of_parts (fun hw hl => ⟨hc.symm ▸ hw, hrun.symm ▸ hl⟩) (fun hu => htime ▸ hu) (hadm (of_decide_eq_false rfl))
    | _ => first | (cases ha; exact absurd (of_decide_eq_true rfl) hb) | exact absurd ha nofun

theorem stats_period (hs : PeriodOk s.adm) (p : List Byte) : PeriodOk (stats p s).adm := by
  have hclear (clear : Bool) (u : State) (hu : PeriodOk u.adm) : PeriodOk (if clear then clearSection (param1 p 0) u else u).adm := by
    split
    · unfold clearSection
      split
      · exact hu.same rfl rfl rfl rfl rfl
      · split
        · exact hu.same rfl rfl rfl rfl rfl
        · split
          · exact hu
          · have hkeep : KeepsAllBut [.sta] u (clearStations (param1 p 0) u) := foldl_keeps (fun v i => keeps_sta _ v) _ u
            rw [hkeep .adm (by decide)]
            exact hu
    · exact hu
  have hrequests (ws : List OwnWrite) (u : State) : KeepsAllBut [.own] u (ws.foldl (fun s w => request w s) u) :=
    foldl_keeps (fun u w => keeps_own _ u) ws u
  unfold stats
  split
  · rw [completeCommand_adm]; exact hs
  · split
    · unfold takeSection setExecuting
      dsimp only
      rw [hrequests _ _ .adm (by decide)]
      exact hclear _ _ hs
    · rw [completeCommand_adm]; exact hs

theorem ClockInv.runCommand (hs : ClockInv s) (code : Nat) {owner : List Byte → State → State} (h : ∀ p, ClockInv (owner p s)) :
    ClockInv (runCommand code owner s) := by
  obtain he | ⟨-, -, c, -, -, he | he⟩ := runCommand_cases code owner s <;> rw [he]
  · exact hs
  · exact hs.keep (completeCommand_keeps _ _ s) (by decide)
  · exact h _

/-! ### Every event -/

theorem ClockInv.initial {clock : Clock} {due : Bool} (hw : WeekOk clock) (hsched : s.sched = Schedule.initial clock due)
    (htime : s.time = Uptime.initial) (hadm : s.adm = Admission.initial) : ClockInv s := by
  rw [clockInv_iff, hsched, htime, hadm]
  exact ⟨hw, ⟨by decide, by decide⟩, (by decide : 0 ≤ 32), by unfold PeriodOk PacingOk Admission.initial; decide⟩

theorem ClockInv.exec {c : Instr} (hs : ClockInv s) (h : exec c s = .next t) : ClockInv t := by
  by_cases hb : Block.sched ∉ touched c ∧ Block.time ∉ touched c ∧ Block.adm ∉ touched c
  · exact hs.keep (exec_keeps h) hb
  · have hkeep {u : State} (h : Machine.exec c s = .next u) (hb : Block.sched ∉ touched c ∧ Block.adm ∉ touched c)
        (hu : UptimeOk s.time → UptimeOk u.time) : ClockInv u := by
      obtain ⟨hclock, hline⟩ := SameWeek.keep (exec_keeps h) hb.1
      refine hs.of_parts (fun hw hl => ?_) hu fun hp => ?_
      · rw [hclock, hline]; exact ⟨hw, hl⟩
      · rw [exec_keeps h .adm hb.2]; exact hp
    have hvisit (state : Roam) (hu : UptimeOk s.time) : UptimeOk (visitFor state s).time := by
      unfold visitFor
      split
      · unfold visitStations
        dsimp only
        rw [foldl_keeps (fun u i => visitStation_keeps i u) (List.finRange 128) s .time (by decide)]
        exact hu
      · exact hu
    cases ha : atOnceOf c with
    | some a =>
      rw [exec_atOnce ha] at h
      cases h
      exact hs.runCommand a.code fun p => (hs.atOnce ha p).keep (completeCommand_keeps _ _ _) (by decide)
    | none =>
      cases c with
      | powerOnReset =>
        cases h
        unfold powerOnReset
        split
        · exact hs
        · exact .initial ⟨by decide, by decide, by decide⟩ rfl rfl rfl
      | warmReset =>
        cases h
        unfold warmReset
        split
        · exact hs
        · exact .initial ((clockInv_iff s).1 hs).1 rfl rfl rfl
      | descriptorDisposition =>
        cases h
        exact hs.same (.keep (descriptorDisposition_keeps s) (by decide)) (descriptorDisposition_keeps s .time (by decide))
          descriptorDisposition_period
      | uptimeSecond => cases h; exact hs.uptimeSecond
      | flowAging =>
        refine hkeep h (of_decide_eq_true rfl) ?_
        cases h
        unfold flowAging
        split <;> exact id
      | candidateExpired => exact hkeep h (of_decide_eq_true rfl) (by cases h; exact hvisit _)
      | holdoffExpiry => exact hkeep h (of_decide_eq_true rfl) (by cases h; exact hvisit _)
      | handoffTimeout => exact hkeep h (of_decide_eq_true rfl) (by cases h; exact hvisit _)
      | minuteBoundary =>
        cases h
        refine hs.of_parts (fun hw hl => ?_) (fun hu => by rw [minuteBoundary_keeps s .time (by decide)]; exact hu)
          fun hp => by rw [minuteBoundary_keeps s .adm (by decide)]; exact hp
        obtain ⟨hc, hline⟩ := minuteBoundary_week hw
        exact ⟨hc, hline.symm ▸ hl⟩
      | lineEdge =>
        cases h
        exact hs.of_parts lineEdge_week (fun hu => by rw [lineEdge_keeps s .time (by decide)]; exact hu)
          fun hp => by rw [lineEdge_keeps s .adm (by decide)]; exact hp
      | pacingPeriodBoundary =>
        cases h
        exact hs.same (.keep (pacingBoundary_keeps s) (by decide)) (pacingBoundary_keeps s .time (by decide)) pacingBoundary_period
      | stats =>
        cases h
        exact hs.runCommand 0x20 fun p =>
          hs.same (.keep (stats_keeps p s) (by decide)) (stats_keeps p s .time (by decide)) fun hp => stats_period hp p
      | tick lineIn => cases h; exact hs.tick lineIn
      | _ => first | exact absurd (of_decide_eq_true rfl) hb | exact absurd ha nofun

end Clocks

/-- Settles O60: the five invariants are each kept by every event; `PathInv` and the port closed under reset both rest on what an event
does to the path (`exec_moves`). -/
theorem everyStepKeepsTheTablesAndClocks : Obligations.EveryStepKeepsTheTablesAndClocks :=
  ⟨step_keeps_of_exec (fun _ _ hs => hs) fun _ _ _ hs h => hs.exec h, step_keeps_of_exec (fun _ _ hs => hs) fun _ _ _ hs h => hs.exec h,
    step_keeps_of_exec (fun _ _ hs => hs) fun _ _ _ hs h => hs.exec h, step_keeps_of_exec (fun _ _ hs => hs) fun _ _ _ hs h => hs.exec h,
    step_keeps_of_exec (fun _ _ hs => hs) fun _ _ _ hs h => hs.exec h⟩

end Sys2Proof.Machine

/-! SUPPORT. The step, the reset and the start-up sequence (R16, R17, R144, R145), rewriting (R7) and the lookup (R1). -/

namespace Sys2Proof.Machine

open Sys2Proof

/-! ### The front of the queue -/

/-- Settles O1: both cases of the step are its definition on the queue. -/
theorem stepTakesTheFront : Obligations.StepTakesTheFront :=
  ⟨fun c rest s h => by simp only [step, h], fun s h => by simp only [step, h]⟩

/-! ### After a reset -/

theorem replicate_at {α : Type} {n : Nat} (x : α) (i : Fin n) : (Vector.replicate n x)[i] = x := by
  rw [Fin.getElem_fin, Vector.getElem_replicate]

theorem resetBlocks_blocksReset (pins : Pins) (carry : List Carry) (clock : Clock) (due : Bool) (trial : Nat) (s : State) :
    BlocksReset (resetBlocks pins carry clock due trial s) := by
  refine ⟨rfl, rfl, rfl, rfl, rfl, rfl, rfl, rfl, rfl, rfl, rfl, replicate_at _, rfl, rfl, fun i => ⟨replicate_at _ i, replicate_at _ i⟩,
    rfl, rfl, fun i => ⟨replicate_at _ i, replicate_at _ i⟩, replicate_at _, rfl, rfl, rfl, rfl, rfl, rfl, rfl, rfl, rfl, rfl, rfl, rfl,
    rfl, replicate_at _, rfl, replicate_at _, replicate_at _, rfl, rfl, rfl, rfl, rfl, rfl, rfl, rfl, replicate_at _, rfl, rfl, rfl, rfl,
    rfl, rfl, rfl, rfl, rfl, rfl, rfl, rfl, replicate_at _, rfl, rfl, rfl, rfl, rfl, rfl, rfl, rfl, rfl⟩

theorem initial_windowsReset (sel : BitVec 2) : WindowsReset sel (Windows.initial sel) :=
  ⟨rfl, rfl, (WindowsOk.initial sel).2, replicate_at _, replicate_at _⟩

theorem mem_outstanding (s : State) (tag : Nat) : tag ∈ outstanding s ↔ Outstanding s tag := by
  have hboot : (tag ∈ match s.boot with
      | .reading tag => [tag]
      | .closed => []
      | .draining => []
      | .requesting => []
      | .opened => []) ↔ s.boot = .reading tag := by
    cases s.boot <;> simp [eq_comm]
  have hsweep : (tag ∈ match s.img.staging.sweep with
      | some { step := .reading tag, .. } => [tag]
      | _ => []) ↔ ∃ w, s.img.staging.sweep = some w ∧ w.step = .reading tag := by
    cases s.img.staging.sweep with
    | none => simp
    | some w => obtain ⟨_, _, _, _, _, st⟩ := w; cases st <;> simp [eq_comm]
  unfold outstanding Outstanding
  simp only [List.mem_append, List.mem_map, List.mem_filter, decide_eq_true_eq, or_assoc]
  refine or_congr Iff.rfl (or_congr ?_ (or_congr ?_ (or_congr ?_ (or_congr hboot (or_congr hsweep Iff.rfl)))))
  · exact exists_congr fun w => by tauto
  · exact exists_congr fun r => by tauto
  · simp

/-- Settles O2: POWER_ON_RESET builds the reset state block by block. -/
theorem powerOnResetClears : Obligations.PowerOnResetClears := by
  intro s hpor
  have hexec : exec .powerOnReset s = .next (resetBlocks { s.pins with por := true } [] Clock.initial false 0 s) := by
    show Host.Outcome.next (powerOnReset s) = _
    rw [powerOnReset, hpor]
    rfl
  exact ⟨_, hexec, resetBlocks_blocksReset .., initial_windowsReset _, rfl, rfl, rfl, rfl, rfl, rfl, mem_outstanding s, rfl, rfl, rfl⟩

/-- Settles O3: WARM_RESET builds the same state with the clock, the trial count and the carry snapshot. -/
theorem warmResetKeepsClockAndUsage : Obligations.WarmResetKeepsClockAndUsage := by
  intro s hrst
  have hexec : exec .warmReset s = .next (resetBlocks { s.pins with rst := true } (carrySnapshot s.sta.stations s.sched.clock.day)
      s.sched.clock s.sched.minuteDue s.img.trial s) := by
    show Host.Outcome.next (warmReset s) = _
    rw [warmReset, hrst]
    rfl
  exact ⟨_, hexec, resetBlocks_blocksReset .., initial_windowsReset _, rfl, fun e => mem_carrySnapshot, rfl, rfl, rfl, rfl,
    mem_outstanding s, rfl, rfl, rfl⟩

/-! ### The start-up sequence -/

theorem release_asserted (p : Pins) (pin : ResetPin) (sel : BitVec 2) :
    (p.release pin sel).asserted pin = false ∧ (p.release pin sel).ctlSel = sel ∧
      ∀ other, other ≠ pin → (p.release pin sel).asserted other = p.asserted other := by
  cases pin <;> refine ⟨rfl, rfl, fun other h => ?_⟩ <;> cases other <;> first | rfl | exact absurd rfl h

/-- Settles O4: each event of the start-up sequence writes the parts it names. -/
theorem startUpWaitsForOwedResponses : Obligations.StartUpWaitsForOwedResponses := by
  refine ⟨fun s pin sel hpin => ?_, fun s tag => ?_, fun s hb ha => ?_, fun s hb ha => ?_⟩
  · obtain ⟨hclear, hsel, hother⟩ := release_asserted s.pins pin sel
    have hexec : exec (.resetRelease pin sel) s = .next (putWindow 0 (WindowRec.control sel) { s with
        pins := s.pins.release pin sel
        boot := if (s.pins.release pin sel).por || (s.pins.release pin sel).rst then .closed else .draining }) := by
      show Host.Outcome.next (resetRelease pin sel s) = _
      rw [resetRelease, if_pos hpin]
    refine ⟨_, hexec, hclear, hsel, hother, putWindow_at .., fun j hj => ?_, rfl, rfl, ?_, ?_, fun b hb => ?_⟩
    · rw [putWindow_at, if_neg hj]
    · show (if _ then Boot.closed else Boot.draining) = _ ↔ (s.pins.release pin sel).por = false ∧ (s.pins.release pin sel).rst = false
      cases (s.pins.release pin sel).por <;> cases (s.pins.release pin sel).rst <;> simp
    · show (if _ then Boot.closed else Boot.draining) = _ ∨ (if _ then Boot.closed else Boot.draining) = _
      split
      · exact .inr rfl
      · exact .inl rfl
    · cases b <;> first | rfl | simp at hb
  · exact ⟨_, rfl, fun x => by simp [abandonedResponse], rfl, keeps_path _ s⟩
  · have hexec : exec .bootRecordReadIssue s = .next { s with boot := .requesting } := by
      show Host.Outcome.next (bootReadIssue s) = _
      rw [bootReadIssue, if_pos ⟨hb, ha⟩]
    exact ⟨_, hexec, rfl, keeps_boot _ s⟩
  · show Host.Outcome.next (bootReadIssue s) = _
    rw [bootReadIssue, if_neg fun h => ha h.2]

/-! ### The start-up decision -/

/-- A report offered to the Command Unit as a reset leaves it is the first to wait, and requests its own write at slot 0. -/
theorem offer_initial {s : State} (h : s.cmd = CommandUnit.initial) (r : Report) :
    offer r s = requestReport ⟨r, s.time.secs⟩ { s with cmd := { CommandUnit.initial with waiting := [⟨r, s.time.secs⟩] } } := by
  have hlost : offerLost s = s := by
    rw [offerLost, h]
    rfl
  have hroom : room s.cmd = true := by rw [h]; decide
  rw [offer, hlost, if_pos hroom, appendReport, h]
  rfl

/-- The image unit and the rings as the decision leaves them: the head word first, then BOOT_STATUS. -/
theorem takeStartUp_parts {s : State} (hc : s.cmd = CommandUnit.initial) (ho : s.own = OwnPort.initial) (d : StartUp) :
    (takeStartUp d s).boot = .opened ∧ (takeStartUp d s).img = { s.img with bank := d.bank, trial := d.trial, record := d.record } ∧
      (takeStartUp d s).cmd = { CommandUnit.initial with waiting := [⟨d.report, s.time.secs⟩] } ∧
      (takeStartUp d s).own = { OwnPort.initial with
        requests := [⟨.head, s.control + 0x808, [0, 0, 0, 0]⟩, ⟨.report, s.control + 0x1000, (Waiting.mk d.report s.time.secs).bytes⟩] } := by
  unfold takeStartUp
  dsimp only
  have hhead : leBytes 4 s.cmd.head = [0, 0, 0, 0] := by rw [hc]; rfl
  rw [offer_initial]
  swap
  · exact hc
  refine ⟨rfl, rfl, rfl, ?_⟩
  show OwnPort.mk (s.own.requests ++ [⟨.head, s.control + 0x808, leBytes 4 s.cmd.head⟩] ++ [_]) s.own.issued = _
  rw [ho, hhead]
  rfl

theorem startUp_fault {trial : Nat} {resps : List Resp} {bs : List Byte} {f : RecordFault} (h : readFault resps bs = some f) :
    startUp trial resps bs = ⟨.a, trial, false, .invalid, some f, none⟩ := by rw [startUp, h]

theorem readFault_error {resps : List Resp} (h : ∃ r ∈ resps, r ≠ Resp.okay) (bs : List Byte) : readFault resps bs = some .readError := by
  rw [readFault, if_neg fun hall => ?_]
  obtain ⟨r, hr, hne⟩ := h
  exact hne (by simpa using List.all_eq_true.1 hall r hr)

theorem readFault_okay {resps : List Resp} (h : ∀ r ∈ resps, r = Resp.okay) (bs : List Byte) : readFault resps bs = recordFault bs := by
  rw [readFault, if_pos (List.all_eq_true.2 fun r hr => by simp [h r hr])]

theorem byte_eq_iff (b : Byte) (n : Nat) (h : n < 256 := by decide) : b = BitVec.ofNat 8 n ↔ b.toNat = n := by
  rw [← BitVec.toNat_inj, BitVec.toNat_ofNat, Nat.mod_eq_of_lt h]

theorem bankOf_isNone (b : Byte) : (bankOf b).isNone = true ↔ ¬(b.toNat = 0 ∨ b.toNat = 1) := by
  rw [← byte_eq_iff b 0, ← byte_eq_iff b 1]
  unfold bankOf
  split
  · next h => exact iff_of_false Bool.false_ne_true fun hne => hne (.inl h)
  · next h0 =>
    split
    · next h1 => exact iff_of_false Bool.false_ne_true fun hne => hne (.inr h1)
    · next h1 => exact iff_of_true rfl fun h => h.elim h0 h1

/-- The four checks of R144 in their order, each said on numbers. -/
theorem recordFault_eq (bs : List Byte) : recordFault bs =
    if bs.take 4 ≠ [0x57#8, 0x32#8, 0x36#8, 0x42#8] then some .magic
    else if leNat (slice bs 28 4) ≠ (crc32 (bs.take 28)).toNat then some .crc
    else if ¬(((byteAt bs 4).toNat = 0 ∨ (byteAt bs 4).toNat = 1) ∧ ((byteAt bs 5).toNat = 0 ∨ (byteAt bs 5).toNat = 1)) then some .bank
    else if ¬((byteAt bs 6).toNat = 0 ∨ (byteAt bs 6).toNat = 1) then some .trial
    else none := by
  have hbank : ((bankOf (recSelected bs)).isNone || (bankOf (recPrevious bs)).isNone) = true ↔
      ¬(((byteAt bs 4).toNat = 0 ∨ (byteAt bs 4).toNat = 1) ∧ ((byteAt bs 5).toNat = 0 ∨ (byteAt bs 5).toNat = 1)) := by
    rw [Bool.or_eq_true, bankOf_isNone, bankOf_isNone, not_and_or]
    rfl
  have htrial : (recTrial bs ≠ 0 ∧ recTrial bs ≠ 1) ↔ ¬((byteAt bs 6).toNat = 0 ∨ (byteAt bs 6).toNat = 1) := by
    rw [← byte_eq_iff _ 0, ← byte_eq_iff _ 1, not_or]
    rfl
  unfold recordFault
  simp only [hbank, htrial]
  rfl

/-- Settles O6: each clause is one path through the four checks. -/
theorem recordFaultIsTheFirstFailingCheck : Obligations.RecordFaultIsTheFirstFailingCheck := by
  intro bs
  rw [recordFault_eq]
  by_cases hmagic : bs.take 4 = [0x57#8, 0x32#8, 0x36#8, 0x42#8]
  · by_cases hcrc : leNat (slice bs 28 4) = (crc32 (bs.take 28)).toNat
    · by_cases hbank : ((byteAt bs 4).toNat = 0 ∨ (byteAt bs 4).toNat = 1) ∧ ((byteAt bs 5).toNat = 0 ∨ (byteAt bs 5).toNat = 1)
      · by_cases htrial : (byteAt bs 6).toNat = 0 ∨ (byteAt bs 6).toNat = 1 <;> simp [hmagic, hcrc, hbank, htrial]
      · have hno : ∀ P : Prop, ¬(((byteAt bs 4).toNat = 0 ∨ (byteAt bs 4).toNat = 1) ∧
            ((byteAt bs 5).toNat = 0 ∨ (byteAt bs 5).toNat = 1) ∧ P) := fun P h => hbank ⟨h.1, h.2.1⟩
        simp only [hmagic, hcrc, hbank, hno, ne_eq, not_true_eq_false, not_false_eq_true, if_true, if_false, true_and, and_false,
          Option.some.injEq, reduceCtorEq]
    · simp [hmagic, hcrc]
  · simp [hmagic]

/-- A well-formed record names two banks and has a trial flag of 0 or 1. -/
theorem recordFault_none {bs : List Byte} (h : recordFault bs = none) :
    bankOf (recSelected bs) = some (namedBank (recSelected bs)) ∧ bankOf (recPrevious bs) = some (namedBank (recPrevious bs)) := by
  obtain ⟨-, -, hsel, hprev, -⟩ := ((recordFaultIsTheFirstFailingCheck bs).2.2.2.2).1 h
  have hnamed {b : Byte} (hb : b.toNat = 0 ∨ b.toNat = 1) : bankOf b = some (namedBank b) := by
    cases hk : bankOf b with
    | some k => rw [namedBank, hk]; rfl
    | none => exact absurd hb ((bankOf_isNone b).1 (by rw [hk]; rfl))
  exact ⟨hnamed hsel, hnamed hprev⟩

/-- Settles O5: the decision of Table 9.3 case by case, on the parts that `takeStartUp_parts` gives. -/
theorem startUpDecidesTheBankInForce : Obligations.StartUpDecidesTheBankInForce := by
  intro s tag resps bs hb hc ho hlen
  have hexec : exec (.bootRecordReadComplete resps bs) s = .next (takeStartUp (startUp s.img.trial resps bs) s) := by
    show Host.Outcome.next (bootReadComplete resps bs s) = _
    rw [bootReadComplete, hb, if_pos (by rfl), show bs.take Config.recordSize = bs from List.take_of_length_le (by rw [hlen]; decide)]
  obtain ⟨hopen, himg, hcmd, hown⟩ := takeStartUp_parts hc ho (startUp s.img.trial resps bs)
  refine ⟨_, (startUp s.img.trial resps bs).cause, (startUp s.img.trial resps bs).reverted, (startUp s.img.trial resps bs).fault, hexec, hopen,
    (takeStartUp_keeps _ s).mono (by decide), ?_, ?_, fun herr => ?_, fun hok => ⟨fun f hf => ?_, fun hnone => ?_⟩⟩
  · rw [himg]
  · rw [hcmd, hown, himg]
    exact ⟨rfl, rfl, rfl⟩
  · rw [himg, startUp_fault (readFault_error herr bs)]
    exact ⟨rfl, rfl, rfl, rfl, rfl, rfl⟩
  · rw [himg, startUp_fault ((readFault_okay hok bs).trans hf)]
    exact ⟨rfl, rfl, rfl, rfl, rfl, rfl⟩
  · obtain ⟨hsel, hprev⟩ := recordFault_none hnone
    have hread : readFault resps bs = none := (readFault_okay hok bs).trans hnone
    rw [himg]
    by_cases h0 : recTrial bs = 0
    · have hd : startUp s.img.trial resps bs = ⟨namedBank (recSelected bs), 0, false, .normal, none, some bs⟩ := by
        simp only [startUp, hread, if_pos h0]
      rw [hd]
      exact ⟨rfl, rfl, fun _ => ⟨hsel, rfl, rfl, rfl⟩, fun h1 => absurd (h0.symm.trans h1) (by decide)⟩
    · by_cases h3 : min (s.img.trial + 1) 255 ≤ 3
      · have hd : startUp s.img.trial resps bs =
            ⟨namedBank (recSelected bs), min (s.img.trial + 1) 255, false, .trial, none, some bs⟩ := by
          simp only [startUp, hread, if_neg h0, satInc, h3, if_true]
        rw [hd]
        exact ⟨rfl, rfl, fun h => absurd h h0, fun _ => ⟨rfl, rfl, fun _ => ⟨hsel, rfl⟩, fun h => absurd h3 (Nat.not_le.2 h)⟩⟩
      · have hd : startUp s.img.trial resps bs =
            ⟨namedBank (recPrevious bs), min (s.img.trial + 1) 255, true, .trial, none, some bs⟩ := by
          simp only [startUp, hread, if_neg h0, satInc, h3, if_false]
        rw [hd]
        exact ⟨rfl, rfl, fun h => absurd h h0, fun _ => ⟨rfl, rfl, fun h => absurd h h3, fun _ => ⟨hprev, rfl⟩⟩⟩

/-! ### Rewriting -/

theorem byteAt_set {bs : List Byte} {j : Nat} (h : j < bs.length) (x : Byte) (i : Nat) :
    byteAt (bs.set j x) i = if i = j then x else byteAt bs i := by
  simp only [byteAt, List.getD_eq_getElem?_getD, List.getElem?_set]
  split
  · next hji => rw [if_pos hji.symm]; rfl
  · next hji => rw [if_neg fun hij => hji hij.symm]

theorem getLsbD_lowNibble {k : Nat} : (0x0F#8).getLsbD k = decide (k < 4) := by
  by_cases h : k < 8
  · interval_cases k <;> decide
  · rw [BitVec.getLsbD_of_ge _ _ (by omega)]
    simp
    omega

theorem withQueue_bit {b : Byte} {low bit : Nat} {q : BitVec 4} (hbit : bit < 8) :
    (withQueue b low q).getLsbD bit = if low ≤ bit ∧ bit < low + 4 then q.getLsbD (bit - low) else b.getLsbD bit := by
  simp only [withQueue, BitVec.getLsbD_or, BitVec.getLsbD_and, BitVec.getLsbD_not, BitVec.getLsbD_shiftLeft, getLsbD_lowNibble, hbit,
    decide_true, Bool.true_and]
  by_cases hlow : bit < low
  · rw [if_neg fun h => absurd h.1 (Nat.not_le.2 hlow)]
    simp [hlow]
  · by_cases hin : bit < low + 4
    · rw [if_pos ⟨Nat.not_lt.1 hlow, hin⟩]
      have : bit - low < 4 := by omega
      simp [hlow, this]
      omega
    · rw [if_neg fun h => hin h.2, BitVec.getLsbD_setWidth, BitVec.getLsbD_of_ge q (bit - low) (by omega)]
      have : ¬bit - low < 4 := by omega
      simp [hlow, this]

theorem withBit_bit {b : Byte} {n bit : Nat} {v : Bool} (hbit : bit < 8) :
    (withBit b n v).getLsbD bit = if bit = n then v else b.getLsbD bit := by
  have hone : (1#8 <<< n).getLsbD bit = decide (bit = n) := by
    rw [BitVec.getLsbD_shiftLeft, BitVec.getLsbD_one]
    simp only [hbit, decide_true, Bool.true_and]
    simp only [Nat.zero_lt_succ, true_and, ← decide_not, ← Bool.decide_and, decide_eq_decide]
    omega
  cases v
  · show (b &&& ~~~(1#8 <<< n)).getLsbD bit = _
    rw [BitVec.getLsbD_and, BitVec.getLsbD_not, hone]
    by_cases h : bit = n <;> simp [hbit, h]
  · show (b ||| 1#8 <<< n).getLsbD bit = _
    rw [BitVec.getLsbD_or, hone]
    by_cases h : bit = n <;> simp [h]

theorem laneBytes_withBytes {d : List Lane} {bs : List Byte} (h : bs.length = d.length) :
    laneBytes (withBytes d bs) = bs ∧ (withBytes d bs).map Lane.strobe = d.map Lane.strobe := by
  induction d generalizing bs with
  | nil => obtain rfl := List.eq_nil_of_length_eq_zero h; exact ⟨rfl, rfl⟩
  | cons l d ih =>
    cases bs with
    | nil => cases h
    | cons b bs =>
      obtain ⟨hb, hs⟩ := ih (Nat.succ.inj h)
      exact ⟨congrArg (b :: ·) hb, congrArg (l.strobe :: ·) hs⟩

/-- Settles O22: the byte named is replaced, and in it the bits named. -/
theorem rewritingChangesOnlyTheField : Obligations.RewritingChangesOnlyTheField := by
  refine ⟨fun bs p q i bit hlen hlow hbit => ⟨List.length_set, ?_⟩, fun bs f i bit hlen hf hbit => ⟨List.length_set, ?_⟩,
    fun d bs h => laneBytes_withBytes h⟩
  · rw [setQueue, byteAt_set hlen]
    by_cases hi : i = p.queueByte
    · simp only [hi, if_true, true_and, withQueue_bit hbit]
    · simp only [hi, if_false, false_and]
  · rw [setFlag, byteAt_set hlen]
    by_cases hi : i = f.byte
    · simp only [hi, if_true, true_and, withBit_bit hbit]
    · simp only [hi, if_false, false_and]

/-! ### The lookup -/

theorem contains_iff {r : WindowRec} {addr : Nat} :
    r.contains addr = true ↔ r.kind ≠ .off ∧ r.base ≤ addr ∧ addr < r.base + r.size := by
  simp [WindowRec.contains, and_assoc]

/-- Settles O7: with the windows apart, the only slot that contains an address is the first one found. -/
theorem lookupGivesTheContainingSlot : Obligations.LookupGivesTheContainingSlot := by
  intro w addr hapart
  refine ⟨fun i hk hlo hhi => ?_, fun hnone => ?_⟩
  · have hfind : vfind (fun r => r.contains addr) w.slots = some i := by
      refine vfind_eq_some (contains_iff.2 ⟨hk, hlo, hhi⟩) fun j hj => Bool.eq_false_iff.2 fun hc => ?_
      obtain ⟨hkj, hloj, hhij⟩ := contains_iff.1 hc
      have := hapart j i (ne_of_lt hj) hkj hk
      omega
    refine ⟨⟨i, w.slots[i], layoutOf w w.slots[i]⟩, by rw [lookupWindow, hfind]; rfl, rfl, rfl, fun h => ?_, fun h => ?_⟩ <;>
      simp only [layoutOf, h]
  · have hfind : vfind (fun r => r.contains addr) w.slots = none := by
      rw [vfind_none]
      intro i
      rw [Bool.eq_false_iff]
      intro hc
      obtain ⟨hk, hlo, hhi⟩ := contains_iff.1 hc
      rcases hnone i with h | h | h
      · exact hk h
      · omega
      · omega
    rw [lookupWindow, hfind]
    rfl

/-! ### The invariants at reset -/

/-- Settles O57: each block's initial state meets the invariants about it. -/
theorem invariantsHoldAtReset : Obligations.InvariantsHoldAtReset := by
  have hnone (i : Fin 128) : State.reset.sta.stations[i] = none := replicate_at _ i
  have hstations : StationInv State.reset := (stationInv_iff _).2 ⟨.initial fun e he => absurd he List.not_mem_nil, nofun⟩
  have hwindows : WindowInv State.reset := (windowInv_iff _).2
    ⟨(WindowsOk.initial 0).1, fun _ => ⟨rfl, rfl, rfl, (WindowsOk.initial 0).2⟩⟩
  refine ⟨⟨Nat.zero_le _, .nil⟩, ringInv_initial rfl rfl, holdInv_initial rfl, hstations, HandoffInv.initial hnone (replicate_at _) rfl,
    flowInv_initial rfl, ClockInv.initial ⟨by decide, by decide, by decide⟩ rfl rfl rfl,
    (pathInv_iff _).2 ⟨writesOk_nil _, Nat.zero_le _⟩, hwindows⟩

end Sys2Proof.Machine

/-! SUPPORT. Arrivals, the write lists and the reception of writes (R1 to R8). -/

namespace Sys2Proof.Machine

open Sys2Proof

/-! ### Arrivals -/

theorem olderListed_iff {p : PathUnit} {id : AxiId} : olderListed p id = true ↔ ∃ o ∈ p.writes, o.listed = true ∧ o.txn.id = id := by
  simp [olderListed, List.any_eq_true]

theorem olderReserved_iff {p : PathUnit} {id : AxiId} : olderReserved p id = true ↔ ∃ o ∈ p.writes, o.reserved = true ∧ o.txn.id = id := by
  simp [olderReserved, List.any_eq_true]

theorem inSector_iff {a : Nat} : inSector a = true ↔ 0x1FFF0000 ≤ a ∧ a ≤ 0x1FFFFFFF := by
  rw [inSector, inRange_iff]
  simp only [Config.sectorBase, Config.sectorSize]
  omega

theorem inAlias_iff {a : Nat} : inRange Config.aliasBase Config.bankSize a = true ↔ 0x1C000000 ≤ a ∧ a < 0x1D000000 := inRange_iff ..

theorem inBank_iff {k : Bank} {a : Nat} : inRange k.base Config.bankSize a = true ↔ k.base ≤ a ∧ a < k.base + 0x1000000 := inRange_iff ..

/-- Both banks lie above the range at which the bank in force is read at boot. -/
theorem bankBase_ge (k : Bank) : 0x1D000000 ≤ k.base := by cases k <;> decide

theorem acceptsWrite_iff {s : State} : acceptsWrite s = true ↔ s.boot = .opened ∧ listedCount s.path < 16 := by
  simp only [acceptsWrite, Bool.and_eq_true, decide_eq_true_eq]
  rfl

theorem refusedRegion_none {k : Bank} {a : Nat} (halias : ¬(0x1C000000 ≤ a ∧ a < 0x1D000000))
    (hbank : ¬(k.base ≤ a ∧ a < k.base + 0x1000000)) : refusedRegion k a = none := by
  rw [refusedRegion, if_neg (mt inAlias_iff.1 halias), if_neg (mt inBank_iff.1 hbank)]

theorem refusedRegion_some {k : Bank} {a : Nat} {region : RefusedRegion}
    (h : region = .bootAlias ∧ 0x1C000000 ≤ a ∧ a < 0x1D000000 ∨ region = .bankInForce ∧ k.base ≤ a ∧ a < k.base + 0x1000000) :
    refusedRegion k a = some region := by
  rcases h with ⟨rfl, h⟩ | ⟨rfl, h⟩
  · rw [refusedRegion, if_pos (inAlias_iff.2 h)]
  · have := bankBase_ge k
    rw [refusedRegion, if_neg (mt inAlias_iff.1 (by omega)), if_pos (inBank_iff.2 h)]

/-- Settles O8: an arrival is taken by its region, and the place that an arrived write takes in the lists is read off its definition. -/
theorem arrivalsKeepTheirLookup : Obligations.ArrivalsKeepTheirLookup := by
  refine ⟨fun s a => ⟨fun hopen hcount halias hbank => ?_, fun hno => ?_⟩, fun s a region hopen hcount hregion => ?_,
    fun s a => ⟨fun hopen => ?_, fun hno => ?_⟩⟩
  · have hexec : exec (.upstreamWriteArrival a) s = .next (enterWrite (arrivedWrite a .arriving s) s) := by
      show Host.Outcome.next (writeArrival a s) = _
      rw [writeArrival, if_pos (acceptsWrite_iff.2 ⟨hopen, hcount⟩), refusedRegion_none halias hbank]
    refine ⟨_, arrivedWrite a .arriving s, hexec, rfl, rfl, rfl, rfl, rfl, ?_, ?_, rfl, keeps_path _ s⟩
    · rw [← olderListed_iff, ← inSector_iff]
      simp [arrivedWrite]
    · rw [← olderReserved_iff]
      simp [arrivedWrite]
  · show Host.Outcome.next (writeArrival a s) = _
    rw [writeArrival, if_neg fun h => ?_]
    obtain ⟨hopen, hcount⟩ := acceptsWrite_iff.1 h
    exact hno.elim (· hopen) fun h => absurd hcount (Nat.not_lt.2 h)
  · have hexec : exec (.upstreamWriteArrival a) s = .next (reportRefusal region a (enterWrite (arrivedWrite a (.refused false) s) s)) := by
      show Host.Outcome.next (writeArrival a s) = _
      rw [writeArrival, if_pos (acceptsWrite_iff.2 ⟨hopen, hcount⟩), refusedRegion_some hregion]
    refine ⟨_, arrivedWrite a (.refused false) s, hexec, rfl, rfl, rfl, rfl, rfl, ?_, ?_, offer_path .., offer_img .., ?_⟩
    · rw [← olderListed_iff]
      simp [arrivedWrite]
    · rw [← olderReserved_iff]
      simp [arrivedWrite]
    · exact .intro [_] ⟨rfl, rfl, rfl, rfl⟩ ((keeps_path _ s).append (keeps_img _ _))
  · have hexec : exec (.upstreamReadArrival a) s = .next { s with path := { s.path with
        reads := s.path.reads ++ [⟨s.path.nextTag, a, lookupWindow s.win a.addr.toNat, readAddress s.img.bank a.addr.toNat, false⟩]
        nextTag := s.path.nextTag + 1 } } := by
      show Host.Outcome.next (readArrival a s) = _
      rw [readArrival, if_pos hopen]
    refine ⟨_, _, hexec, rfl, rfl, rfl, rfl, rfl, keeps_path _ s, fun hlo hhi => ?_, fun hout => ?_⟩
    · show readAddress _ _ = _
      rw [readAddress, if_pos (inAlias_iff.2 ⟨hlo, hhi⟩)]
      cases s.img.bank <;> rfl
    · exact if_neg (mt inAlias_iff.1 (by omega))
  · show Host.Outcome.next (readArrival a s) = _
    rw [readArrival, if_neg hno]

/-! ### The write lists -/

/-- The settled write at a place is settled against the settled ones before it. -/
theorem settleFrom_at {acc ws : List WriteTx} {k : Nat} {w : WriteTx} (h : ws[k]? = some w) :
    (settleFrom acc ws)[k]? =
      some (settleWrite ((((settleFrom acc ws).take k).reverse ++ acc).filter fun o => o.txn.id == w.txn.id) w) := by
  induction ws generalizing acc k with
  | nil => cases h
  | cons x ws ih =>
    cases k with
    | zero => cases h; rfl
    | succ k =>
      have := ih (acc := settleWrite (acc.filter fun o => o.txn.id == x.txn.id) x :: acc) h
      simpa only [settleFrom, List.getElem?_cons_succ, List.take_succ_cons, List.reverse_cons, List.append_assoc, List.singleton_append]
        using this

/-- What settling makes of a write, given the older ones of its ID. -/
theorem settleWrite_places (ahead : List WriteTx) (w : WriteTx) :
    (w.reserved = true → (∃ o ∈ ahead, o.listed = true) →
      (settleWrite ahead w).listed = true ∧ (settleWrite ahead w).reserved = false) ∧
    (w.reserved = true → (¬∃ o ∈ ahead, o.listed = true) →
      (settleWrite ahead w).listed = w.listed ∧
        ((settleWrite ahead w).reserved = true ↔
          w.stage = .arriving ∧ mayHold w.win w.txn = true ∨ ∃ o ∈ ahead, o.reserved = true)) ∧
    (w.reserved = false →
      (settleWrite ahead w).reserved = false ∧
        ((settleWrite ahead w).listed = true ↔
          w.listed = true ∧ ((∃ o ∈ ahead, o.listed = true) ∨ ∀ received, w.stage ≠ .refused received))) := by
  have hrefused : w.isRefused = true ↔ ¬∀ received, w.stage ≠ .refused received := by
    unfold WriteTx.isRefused
    cases w.stage <;> simp
  refine ⟨fun hr hb => ?_, fun hr hb => ?_, fun hr => ?_⟩
  · rw [settleWrite, if_pos hr, if_pos (List.any_eq_true.2 hb)]
    exact ⟨rfl, rfl⟩
  · rw [settleWrite, if_pos hr, if_neg (mt List.any_eq_true.1 hb)]
    refine ⟨rfl, ?_⟩
    simp [WriteTx.undecided, List.any_eq_true]
  · rw [settleWrite, if_neg (by rw [hr]; exact Bool.false_ne_true)]
    split
    · next h =>
      rw [Bool.and_eq_true, Bool.and_eq_true, Bool.not_eq_true', Bool.eq_false_iff, ne_eq, List.any_eq_true] at h
      obtain ⟨⟨hl, href⟩, hb⟩ := h
      exact ⟨hr, iff_of_false Bool.false_ne_true fun ⟨_, hor⟩ => hor.elim hb (hrefused.1 href)⟩
    · next h =>
      rw [Bool.and_eq_true, Bool.and_eq_true, Bool.not_eq_true', Bool.eq_false_iff, ne_eq, List.any_eq_true] at h
      refine ⟨hr, fun hl => ⟨hl, ?_⟩, And.left⟩
      by_contra hor
      rw [not_or] at hor
      exact h ⟨⟨hl, hrefused.2 hor.2⟩, hor.1⟩

/-- The settled writes before a place, restricted to an ID: membership as the statement of the lists says it. -/
theorem exists_mem_ahead {acc : List WriteTx} {id : AxiId} {P : WriteTx → Prop} :
    (∃ o ∈ (acc.reverse ++ []).filter fun o : WriteTx => o.txn.id == id, P o) ↔ ∃ o ∈ acc, o.txn.id = id ∧ P o := by
  simp [and_assoc]

/-! ### Receptions -/

/-- The last beat of a write whose data is awaited is received as what it is. -/
theorem exec_received {s : State} {w : WriteTx} {d : List Lane} (h : Receives s w d) :
    exec (.upstreamWriteReceived w.tag d) s = .next (receiveAs (receptionOf s.img w d) w d s) :=
  congrArg Host.Outcome.next (receive_eq h (fun _ => true) rfl)

/-- A write that concerns no owner passes as it is. -/
theorem exec_received_plain {s : State} {w : WriteTx} {d : List Lane} (h : Receives s w d) (hwin : w.win = none)
    (hsec : inSector w.txn.addr.toNat = false) (hst : inStaging s.img w.txn.addr.toNat = false) :
    exec (.upstreamWriteReceived w.tag d) s = .next (passWrite w.tag d s) := by
  have hk : receptionOf s.img w d = .plain := by simp [receptionOf, h.notRefused, hsec, hst, hwin]
  rw [exec_received h, hk]
  show Host.Outcome.next (passWrite w.tag d (countPeerPartial w s)) = _
  rw [countPeerPartial, hwin]
  rfl

/-- Settles O10: both are the reception by its kind. -/
theorem plainWriteIsReadyAtReception : Obligations.PlainWriteIsReadyAtReception := by
  refine ⟨fun s w d h hwin hsec hst => ?_, fun s w d hw hst hlen => ?_⟩
  · exact ⟨_, exec_received_plain h hwin hsec hst, passWrite_spec w.tag d s⟩
  · have hk : receptionOf s.img w d = .refusal := by simp [receptionOf, WriteTx.isRefused, hst]
    have hexec : exec (.upstreamWriteReceived w.tag d) s = .next (receiveRefused w s) := by
      show Host.Outcome.next (receive _ w.tag d s) = _
      simp [receive, awaited, hw, hst, hlen, hk, receiveAs]
    exact ⟨_, hexec, keeps_path _ s, rfl⟩

/-- Settling takes no place for a write of an ID that stands in no list. -/
theorem settleFrom_free {acc ws : List WriteTx} {id : AxiId} (h : ∀ x ∈ ws, x.txn.id = id → x.listed = false ∧ x.reserved = false) :
    ∀ v ∈ settleFrom acc ws, v.txn.id = id → v.listed = false ∧ v.reserved = false := by
  induction ws generalizing acc with
  | nil => exact fun v hv => absurd hv List.not_mem_nil
  | cons w ws ih =>
    intro v hv hid
    rcases List.mem_cons.1 hv with rfl | hv
    · rw [settleWrite_txn] at hid
      obtain ⟨hl, hr⟩ := h w List.mem_cons_self hid
      simp [settleWrite, hl, hr]
    · exact ih (fun x hx => h x (List.mem_cons_of_mem _ hx)) v hv hid

/-- The write that a tag names after a list of writes with other tags. -/
theorem findWrite_append {p : PathUnit} {older newer : List WriteTx} {w : WriteTx} {tag : Nat} (h : p.writes = older ++ w :: newer)
    (htag : w.tag = tag) (hne : ∀ x ∈ older, x.tag ≠ tag) : findWrite p tag = some w := by
  subst htag
  rw [findWrite, h, List.find?_append, List.find?_eq_none.2 fun x hx => by simpa using hne x hx]
  simp

/-- A write that needs no decision stands in no list when it was in none and no older write of its ID is in one. -/
theorem settleWrite_free {ahead : List WriteTx} {w : WriteTx} (ha : ∀ o ∈ ahead, o.listed = false ∧ o.reserved = false)
    (hl : w.listed = false) (hst : w.stage ≠ .arriving) :
    (settleWrite ahead w).listed = false ∧ (settleWrite ahead w).reserved = false := by
  obtain ⟨-, hkept, hplain⟩ := settleWrite_places ahead w
  cases hr : w.reserved with
  | true =>
    obtain ⟨hl', hr'⟩ := hkept hr fun ⟨o, ho, h⟩ => absurd h (by rw [(ha o ho).1]; decide)
    refine ⟨hl'.trans hl, Bool.eq_false_iff.2 fun h => ?_⟩
    rcases hr'.1 h with ⟨h, -⟩ | ⟨o, ho, h⟩
    · exact hst h
    · exact absurd h (by rw [(ha o ho).2]; decide)
  | false =>
    obtain ⟨hr', hl'⟩ := hplain hr
    exact ⟨Bool.eq_false_iff.2 fun h => absurd (hl'.1 h).1 (by rw [hl]; decide), hr'⟩

/-- Settles O9: place by place by `settleWrite_places`; a write that needs no decision then finds no place kept and none taken. -/
theorem writeListsFollowTheOlderWrites : Obligations.WriteListsFollowTheOlderWrites := by
  refine ⟨fun ws k w hk => ?_, fun ws => settleFrom_length [] ws, fun s older newer w d h hws hne hwin hsec hst hl hfree => ?_⟩
  · refine ⟨_, settleFrom_at hk, settleWrite_eq _ _, ?_⟩
    have := settleWrite_places ((((settleFrom [] ws).take k).reverse ++ []).filter fun o => o.txn.id == w.txn.id) w
    simp only [exists_mem_ahead] at this
    exact this
  · have hpass : (passWrite w.tag d s).path.writes =
        settleFrom [] (older ++ { w with data := d, stage := .ready } :: newer.map fun x =>
          if x.tag = w.tag then { x with data := d, stage := .ready } else x) := by
      rw [(passWrite_spec w.tag d s).1, hws]
      dsimp only
      rw [List.map_append, List.map_cons, if_pos rfl]
      congr 2
      exact List.map_congr_left (g := id) (fun x hx => if_neg (hne x hx)) |>.trans (List.map_id _)
    rw [settleFrom_append] at hpass
    let ahead := ((settleFrom [] older).reverse ++ []).filter fun o : WriteTx => o.txn.id == w.txn.id
    have hahead : ∀ o ∈ ahead, o.listed = false ∧ o.reserved = false := fun o ho => by
      obtain ⟨hmem, hid⟩ := List.mem_filter.1 ho
      rw [List.append_nil, List.mem_reverse] at hmem
      exact settleFrom_free hfree o hmem (beq_iff_eq.1 hid)
    obtain ⟨hplaces, hgiven⟩ := settleWrite_free (w := { w with data := d, stage := .ready }) hahead hl nofun
    refine ⟨_, settleWrite ahead { w with data := d, stage := .ready }, exec_received_plain ⟨h.1, h.2.1, h.2.2⟩ hwin hsec hst, ?_,
      settleWrite_stage .., hplaces, hgiven⟩
    refine findWrite_append hpass (settleWrite_tag ..) fun x hx => ?_
    obtain ⟨y, hy, htag, -⟩ := settleFrom_origin hx
    exact fun hx => hne y hy (htag ▸ hx)

/-! ### Receptions in a window -/

theorem exec_received_window {s : State} {w : WriteTx} {c : WinCopy} {d : List Lane} {kind : WindowKind} (h : Receives s w d)
    (hw : InWindow w c kind) : exec (.upstreamWriteReceived w.tag d) s = .next (receiveAs (windowReception c w.txn d) w d s) := by
  rw [exec_received h, receptionOf_window h hw]

/-- A write that no kind of its window concerns passes without effect. -/
theorem exec_received_unexamined {s : State} {w : WriteTx} {c : WinCopy} {d : List Lane} {kind : WindowKind} (h : Receives s w d)
    (hw : InWindow w c kind) (hne : kind ≠ .peer) (hk : windowReception c w.txn d = .plain) :
    exec (.upstreamWriteReceived w.tag d) s = .next (passWrite w.tag d s) := by
  have hpeer : countPeerPartial w s = s := by
    rw [countPeerPartial, if_neg]
    rw [hw.1, Option.any_some, hw.2.1, beq_iff_eq]
    exact hne
  rw [exec_received_window h hw, hk]
  show Host.Outcome.next (passWrite w.tag d (countPeerPartial w s)) = _
  rw [hpeer]

/-- Only the path counts for a write that passes. -/
theorem passWrite_passes {s u : State} (hp : u.path = s.path) (tag : Nat) (d : List Lane) : Passes tag d s (passWrite tag d u) := by
  rw [Passes, ← hp]
  exact (passWrite_spec tag d u).1

/-- A write that passes after its owner has changed other parts. -/
theorem passWrite_after {bs : List Block} {s u : State} (hp : u.path = s.path) (hk : KeepsAllBut bs s u) (tag : Nat) (d : List Lane) :
    Passes tag d s (passWrite tag d u) ∧ KeepsAllBut (.path :: bs) s (passWrite tag d u) := by
  refine ⟨passWrite_passes hp tag d, (hk.append (passWrite_keeps tag d u)).mono fun b hb => ?_⟩
  rcases List.mem_append.1 hb with hb | hb
  · exact List.mem_cons_of_mem _ hb
  · exact List.mem_singleton.1 hb ▸ List.mem_cons_self

/-- A count of a slot's counts goes up as its write passes. -/
theorem passWrite_counted (slot : Fin 16) (f : SlotCounts → SlotCounts) (tag : Nat) (d : List Lane) (s : State) :
    Passes tag d s (passWrite tag d (modCounts slot f s)) ∧ KeepsAllBut [.path, .rew] s (passWrite tag d (modCounts slot f s)) ∧
      (passWrite tag d (modCounts slot f s)).rew.order = s.rew.order ∧
      OtherEntries slot s.rew.counts (passWrite tag d (modCounts slot f s)).rew.counts ∧
      (passWrite tag d (modCounts slot f s)).rew.counts[slot] = f s.rew.counts[slot] := by
  obtain ⟨hpass, hkeep⟩ := passWrite_after (s := s) (u := modCounts slot f s) rfl (modCounts_keeps slot f s) tag d
  exact ⟨hpass, hkeep, rfl, fun j hj => vmod_ne _ _ _ _ hj, vmod_same _ _ _⟩

/-- What the Descriptor Rewriter makes of a write into one of its windows: held, passed, or passed and counted (R98, R107). -/
theorem rewriterReception {s t : State} {w : WriteTx} {c : WinCopy} {d : List Lane} {n : Nat} {flag : Bool} {f : SlotCounts → SlotCounts}
    (ht : t =
      if complete c.record.base c.record.size n w.txn d then if flag then holdForRewriter w.tag d s else passWrite w.tag d s
      else passWrite w.tag d (modCounts c.slot f s)) :
    (CompleteFor c n w.txn d → flag = true →
      HeldWith w.tag d s t ∧ t.rew = { s.rew with order := s.rew.order ++ [w.tag] } ∧ KeepsAllBut [.path, .rew] s t) ∧
    (CompleteFor c n w.txn d → flag = false → Passes w.tag d s t ∧ KeepsAllBut [.path] s t) ∧
    (¬CompleteFor c n w.txn d →
      Passes w.tag d s t ∧ KeepsAllBut [.path, .rew] s t ∧ t.rew.order = s.rew.order ∧ OtherEntries c.slot s.rew.counts t.rew.counts ∧
        t.rew.counts[c.slot] = f s.rew.counts[c.slot]) := by
  refine ⟨fun hc hf => ?_, fun hc hf => ?_, fun hc => ?_⟩
  · rw [if_pos ((complete_iff ..).2 hc), if_pos hf] at ht
    exact ht ▸ holdForRewriter_spec w.tag d s
  · rw [if_pos ((complete_iff ..).2 hc), if_neg (by rw [hf]; decide)] at ht
    exact ht ▸ passWrite_spec w.tag d s
  · rw [if_neg (mt (complete_iff ..).1 hc)] at ht
    subst ht
    exact passWrite_counted c.slot f w.tag d s

/-- Settles O11: the two windows differ in the profile and the count alone. -/
theorem completeRecordsAreHeldForTheRewriter : Obligations.CompleteRecordsAreHeldForTheRewriter := by
  intro s w c d h
  refine ⟨fun p hw hp => ?_, fun p hw hp => ?_⟩
  · have hk : windowReception c w.txn d = .descriptor := by rw [windowReception, hw.2.1]
    exact ⟨receiveDescriptor w d s, by rw [exec_received_window h hw, hk]; rfl,
      rewriterReception (f := fun k => { k with partials := satInc count32 k.partials }) (by simp only [receiveDescriptor, hw.1, hp])⟩
  · have hk : windowReception c w.txn d = .status := by rw [windowReception, hw.2.1]
    exact ⟨receiveStatus w d s, by rw [exec_received_window h hw, hk]; rfl,
      rewriterReception (f := fun k => { k with statusPartial := satInc count32 k.statusPartial }) (by simp only [receiveStatus, hw.1, hp])⟩

/-! ### Frame-start writes -/

theorem frameStarts_iff {r : WindowRec} {t : TxnAddr} : frameStarts r t = true ↔
    t.burst = .incr ∧ r.base + r.headroom ≤ t.addr.toNat ∧ (t.addr.toNat - r.base - r.headroom) % r.stride = 0 := by
  simp [frameStarts, and_assoc]

theorem dropCapture_eq (key : Nat) (c : CaptureUnit) : dropCapture key c = { c with
    records := c.records.filter fun r => r.key != key
    replaced := if (c.records.any fun r => r.key == key) = true then min (c.replaced + 1) 4294967295 else c.replaced } := by
  unfold dropCapture
  split
  · rfl
  · next h =>
    rw [List.filter_eq_self.2 fun r hr => ?_]
    rw [bne_iff_ne]
    exact fun hk => h (List.any_eq_true.2 ⟨r, hr, beq_iff_eq.2 hk⟩)

theorem evictCapture_eq (c : CaptureUnit) : evictCapture c = { c with
    records := if c.records.length < 256 then c.records else c.records.tail
    evicted := if c.records.length < 256 then c.evicted else min (c.evicted + 1) 4294967295 } := by
  unfold evictCapture
  split
  · next h =>
    have h' : ¬c.records.length < 256 := Nat.not_lt.2 h
    simp only [if_neg h']
    rfl
  · next h =>
    have h' : c.records.length < 256 := Nat.not_le.1 h
    simp only [if_pos h']

theorem parseFrame_frame (key now : Nat) (bs : List Byte) :
    (parseFrame key now bs).key = key ∧ (parseFrame key now bs).dst = macAt bs 0 ∧ (parseFrame key now bs).uptime = now := by
  unfold parseFrame
  dsimp only
  cases kindOf (etherType bs).1 <;> exact ⟨rfl, rfl, rfl⟩

/-- Settles O12: the entry of a capture record is a replacement, an eviction and an append. -/
theorem frameStartEntersACapture : Obligations.FrameStartEntersACapture := by
  refine ⟨fun s w c d h hw hb hbase hstride => ?_, fun s w c d h hw hno => ?_⟩
  · have hk : receptionOf s.img w d = .frameStart := by
      rw [receptionOf_window h hw, windowReception, hw.2.1]
      exact if_pos (frameStarts_iff.2 ⟨hb, hbase, hstride⟩)
    have hexec : exec (.frameStartWrite w.tag d) s = .next (receiveFrame w d s) := by
      show Host.Outcome.next (receive _ w.tag d s) = _
      rw [receive_eq h _ (by rw [hk]; rfl), hk]
      rfl
    obtain ⟨hpass, hkeep⟩ := passWrite_after (by rfl)
      (keeps_capture (captureFrame w.txn.addr.toNat s.now d s.capture) s) w.tag d
    refine ⟨_, hexec, hpass, hkeep, fun hlen => ?_, fun hlen => ?_⟩
    · show captureFrame _ _ _ _ = _
      rw [captureFrame]
      exact (if_pos hlen).trans (dropCapture_eq ..)
    · obtain ⟨hkey, hdst, hup⟩ := parseFrame_frame w.txn.addr.toNat s.now (capturedBytes d)
      refine ⟨parseFrame w.txn.addr.toNat s.now (capturedBytes d), hkey, hdst, hup, by rw [hkey, hup]; rfl, ?_⟩
      have hcap : captureFrame w.txn.addr.toNat s.now d s.capture =
          enterCapture (parseFrame w.txn.addr.toNat s.now (capturedBytes d)) s.capture := if_neg (Nat.not_lt.2 hlen)
      show (captureFrame _ _ _ _).records = _ ∧ (captureFrame _ _ _ _).replaced = _ ∧ (captureFrame _ _ _ _).captured = _ ∧
        (captureFrame _ _ _ _).evicted = _
      rw [hcap, enterCapture, hkey, evictCapture_eq, dropCapture_eq]
      exact ⟨rfl, rfl, rfl, rfl⟩
  · have hk : windowReception c w.txn d = .plain := by
      rw [windowReception, hw.2.1]
      exact if_neg (mt frameStarts_iff.1 hno)
    exact ⟨_, exec_received_unexamined h hw nofun hk, passWrite_spec w.tag d s⟩

/-! ### Peer records -/

theorem takePeer_ignored {r : PeerRecord} {s : State} (h : findStation s.sta r.mac = none ∨ 7 < r.node ∨ r.node = s.sig.node) :
    takePeer r s = { s with sig := { s.sig with peerIgnored := min (s.sig.peerIgnored + 1) 4294967295 } } := by
  unfold takePeer
  split
  · rfl
  · next i hi =>
    rw [hi] at h
    rw [if_pos (h.resolve_left nofun)]
    rfl

/-- The station after a taken record: its entry is replaced when the test of R119 says so. -/
def offeredPeer (r : PeerRecord) (s : State) (st : Station) : Station :=
  if peerReplaces st.peer (peerOf r s.now) s.now (s.sig.profiles[st.roam]).peerMaxAge then { st with peer := some (peerOf r s.now) } else st

theorem takePeer_taken {r : PeerRecord} {s : State} {i : Fin 128} (hf : findStation s.sta r.mac = some i) (h7 : r.node ≤ 7)
    (hown : r.node ≠ s.sig.node) :
    takePeer r s =
      modStation i (offeredPeer r s) { s with sig := { s.sig with peerTaken := min (s.sig.peerTaken + 1) 4294967295 } } := by
  unfold takePeer
  rw [hf]
  dsimp only
  rw [if_neg (by omega)]
  rfl

theorem peerReplaces_iff {old : Option Peer} {new : Peer} {now maxAge : Nat} : peerReplaces old new now maxAge = true ↔
    old = none ∨ ∃ q, old = some q ∧ (maxAge < now - q.measuredAt ∨ q.node = new.node ∨ q.est < new.est) := by
  cases old with
  | none => simp [peerReplaces]
  | some q => simp [peerReplaces, Peer.expired, or_assoc]

theorem complete_peer {c : WinCopy} {w : WriteTx} {d : List Lane} (hk : c.record.kind = .peer) :
    windowReception c w.txn d = if complete c.record.base c.record.size 16 w.txn d then .peer else .plain := by
  rw [windowReception, hk]

/-- Settles O14: the record is ignored or taken by `takePeer`, and the write passes. -/
theorem peerRecordIsTakenAtReception : Obligations.PeerRecordIsTakenAtReception := by
  refine ⟨fun s w c d h hw hc => ?_, fun s w c d h hw hc => ?_⟩
  · have hk : receptionOf s.img w d = .peer := by
      rw [receptionOf_window h hw, complete_peer hw.2.1, if_pos ((complete_iff ..).2 hc)]
    have hexec : exec (.peerRecord w.tag d) s =
        .next (passWrite w.tag d (takePeer (peerRecordOf c.record.order (laneBytes d)) s)) := by
      show Host.Outcome.next (receive _ w.tag d s) = _
      rw [receive_eq h _ (by rw [hk]; rfl), hk]
      simp only [receiveAs, receivePeer, hw.1]
    have hpath := takePeer_keeps (peerRecordOf c.record.order (laneBytes d)) s .path (by decide)
    refine ⟨_, hexec, (passWrite_after hpath (takePeer_keeps _ s) w.tag d).1, fun hign => ?_, fun i st hf hst h7 hown => ?_⟩
    · rw [takePeer_ignored hign]
      exact ⟨rfl, (passWrite_after (by rfl) (keeps_sig _ s) w.tag d).2⟩
    · rw [takePeer_taken hf h7 hown]
      have hat : (modStation i (offeredPeer (peerRecordOf c.record.order (laneBytes d)) s)
          { s with sig := { s.sig with peerTaken := min (s.sig.peerTaken + 1) 4294967295 } }).sta.stations[i] =
            some (offeredPeer (peerRecordOf c.record.order (laneBytes d)) s st) := by
        rw [modStation_at, if_pos rfl]
        exact congrArg _ hst
      refine ⟨rfl, (passWrite_after (by rfl) ((keeps_sig _ s).append (modStation_keeps i _ _)) w.tag d).2,
        fun j hj => (modStation_at ..).trans (if_neg hj), rfl, rfl, fun hrep => hat.trans ?_, fun q hq hage hnode hest => hat.trans ?_⟩
      · rw [offeredPeer, if_pos (peerReplaces_iff.2 hrep)]
        rfl
      · rw [offeredPeer, if_neg fun hrep => ?_]
        rcases peerReplaces_iff.1 hrep with hnone | ⟨q', hq', h'⟩
        · exact absurd (hq.symm.trans hnone) nofun
        · obtain rfl := Option.some.inj (hq.symm.trans hq')
          rcases h' with h' | h' | h'
          · exact absurd hage (Nat.not_le.2 h')
          · exact hnode h'
          · exact absurd hest (Int.not_le.2 h')
  · have hk : windowReception c w.txn d = .plain := by
      rw [complete_peer hw.2.1, if_neg (mt (complete_iff ..).1 hc)]
    have hpeer : countPeerPartial w s = { s with sig := { s.sig with peerPartial := min (s.sig.peerPartial + 1) 4294967295 } } := by
      rw [countPeerPartial, hw.1, Option.any_some, hw.2.1]
      rfl
    rw [exec_received_window h hw, hk]
    show ∃ t, Host.Outcome.next (passWrite w.tag d (countPeerPartial w s)) = .next t ∧ _
    rw [hpeer]
    obtain ⟨hpass, hkeep⟩ := passWrite_after (by rfl)
      (keeps_sig { s.sig with peerPartial := min (s.sig.peerPartial + 1) 4294967295 } s) w.tag d
    exact ⟨_, rfl, hpass, rfl, hkeep⟩

/-! ### The control window -/

theorem complete_range_iff {base size n : Nat} {t : TxnAddr} {d : List Lane} : complete base size n t d = true ↔
    base ≤ t.addr.toNat ∧ 0 < n ∧ (t.addr.toNat - base) % n = 0 ∧ t.addr.toNat + n ≤ base + size ∧ t.len = n ∧ covers t = true ∧
      ∀ l ∈ d, l.strobe = true := by
  simp [complete, shapeComplete, strobesSet, and_assoc]

theorem complete_command_iff {base : Nat} {t : TxnAddr} {d : List Lane} (hlo : base ≤ t.addr.toNat) (hhi : t.addr.toNat < base + 0x800) :
    complete base Config.commandAreaSize 32 t d = true ↔
      (t.addr.toNat - base) % 32 = 0 ∧ t.len = 32 ∧ covers t = true ∧ ∀ l ∈ d, l.strobe = true := by
  have hend : (t.addr.toNat - base) % 32 = 0 → t.addr.toNat + 32 ≤ base + Config.commandAreaSize := fun h => by
    simp only [Config.commandAreaSize]
    omega
  rw [complete_range_iff]
  exact ⟨fun ⟨_, _, hm, _, hl, hc, hd⟩ => ⟨hm, hl, hc, hd⟩, fun ⟨hm, hl, hc, hd⟩ => ⟨hlo, by decide, hm, hend hm, hl, hc, hd⟩⟩

theorem complete_tail_iff {base : Nat} {t : TxnAddr} {d : List Lane} : complete (base + Config.tailOffset) 4 4 t d = true ↔
    t.addr.toNat = base + 0x800 ∧ t.len = 4 ∧ covers t = true ∧ ∀ l ∈ d, l.strobe = true := by
  rw [complete_range_iff]
  simp only [Config.tailOffset]
  constructor
  · rintro ⟨hlo, -, -, hhi, hl, hc, hd⟩
    exact ⟨by omega, hl, hc, hd⟩
  · rintro ⟨ha, hl, hc, hd⟩
    exact ⟨by omega, by decide, by rw [ha, Nat.sub_self], by omega, hl, hc, hd⟩

/-- Beyond the command area a write is one of the tail word or no owner's. -/
theorem controlReception_beyond {base : Nat} {t : TxnAddr} {d : List Lane} (h : base + 0x800 ≤ t.addr.toNat) :
    controlReception base t d = if complete (base + Config.tailOffset) 4 4 t d then .tail else .plain := by
  have hcmd : ¬complete base Config.commandAreaSize 32 t d = true := fun hc => by
    have := (complete_range_iff.1 hc).2.2.2.1
    simp only [Config.commandAreaSize] at this
    omega
  have hin : ¬inRange base Config.commandAreaSize t.addr.toNat = true := fun hr => by
    have := ((inRange_iff ..).1 hr).2
    simp only [Config.commandAreaSize] at this
    omega
  rw [controlReception, if_neg hcmd, if_neg hin]

/-- A full queue has its command held, as a write for the Descriptor Rewriter is. -/
theorem hold_heldWith (tag : Nat) (d : List Lane) (s : State) : HeldWith tag d s (hold tag (storeData tag d s)) :=
  (holdForRewriter_spec tag d s).1

/-- Settles O15: the command area splits into the complete commands, captured or held, and the rest, reported. -/
theorem commandAreaWritesAreCapturedOrIgnored : Obligations.CommandAreaWritesAreCapturedOrIgnored := by
  refine ⟨fun s w c d h hw hlo hhi hmod hlen hcov hstr => ?_, fun s w c d h hw hlo hhi hbase hbad => ?_⟩
  · have hk : receptionOf s.img w d = .command := by
      rw [receptionOf_window h hw, windowReception, hw.2.1]
      exact if_pos ((complete_command_iff hlo (by omega)).2 ⟨hmod, hlen, hcov, hstr⟩)
    have hexec : exec (.commandCapture w.tag d) s = .next (receiveCommand w d s) := by
      show Host.Outcome.next (receive _ w.tag d s) = _
      rw [receive_eq h _ (by rw [hk]; rfl), hk]
      rfl
    rw [hexec]
    by_cases hroom : s.cmd.queue.length < 8
    · have hcap : receiveCommand w d s = passWrite w.tag d (capture (laneBytes d) s) := if_pos hroom
      rw [hcap]
      obtain ⟨hpass, hkeep⟩ := passWrite_after (by rfl)
        (keeps_cmd { s.cmd with queue := s.cmd.queue ++ [laneBytes d] } s) w.tag d
      exact ⟨_, rfl, hkeep, fun _ => ⟨hpass, rfl⟩, fun hfull => absurd hroom (Nat.not_lt.2 hfull)⟩
    · have hheld : receiveCommand w d s = { hold w.tag (storeData w.tag d s) with cmd := { s.cmd with held := s.cmd.held ++ [w.tag] } } :=
        if_neg hroom
      rw [hheld]
      exact ⟨_, rfl, (keeps_path _ s).append (keeps_cmd _ _), fun h => absurd h hroom, fun _ => ⟨hold_heldWith w.tag d s, rfl⟩⟩
  · have hk : windowReception c w.txn d = .commandOther := by
      rw [windowReception, hw.2.1]
      show controlReception _ _ _ = _
      rw [controlReception, if_neg, if_pos]
      · exact (inRange_iff ..).2 ⟨hlo, hhi⟩
      · intro hc
        obtain ⟨hm, hl, hcv, hs⟩ := (complete_command_iff hlo hhi).1 hc
        rcases hbad with hb | hb | hb | ⟨l, hl', hb⟩
        · exact hb hm
        · exact hb hl
        · exact absurd hcv (by rw [hb]; decide)
        · exact absurd (hs l hl') (by rw [hb]; decide)
    rw [exec_received_window h hw, hk, hbase]
    let u : State := { s with cmd := { s.cmd with ignored := min (s.cmd.ignored + 1) 4294967295 } }
    have hrep : Reports [] [.cmdIgnored (w.txn.addr.toNat - s.control) w.txn.len w.txn.id] u
        (offer (.cmdIgnored (w.txn.addr.toNat - s.control) w.txn.len w.txn.id) u) := .intro [_] (.refl u) (.refl _ u)
    obtain ⟨hpass, hkeep⟩ := passWrite_after (s := u) (offer_path _ u) hrep.2.2 w.tag d
    have hcmd := passWrite_keeps w.tag d (offer (.cmdIgnored (w.txn.addr.toNat - s.control) w.txn.len w.txn.id) u) .cmd (by decide)
    have hown := passWrite_keeps w.tag d (offer (.cmdIgnored (w.txn.addr.toNat - s.control) w.txn.len w.txn.id) u) .own (by decide)
    exact ⟨passWrite w.tag d (offer (.cmdIgnored (w.txn.addr.toNat - s.control) w.txn.len w.txn.id) u), rfl, hpass, hcmd.trans hrep.1,
      hown.trans hrep.2.1, hkeep⟩

/-! ### The tail word -/

theorem tailAccepted_iff {c : CommandUnit} {v : Nat} : tailAccepted c v = true ↔
    v < 256 ∧ (v + 256 - c.tail) % 256 ≤ (c.head + 256 - c.tail) % 256 := by
  simp [tailAccepted]

/-- The LOST record joins the waiting list, and nothing else of the Command Unit changes. -/
theorem offerLost_cmd (s : State) : (offerLost s).cmd =
    if 0 < s.cmd.lost ∧ room s.cmd = true then
      { s.cmd with waiting := s.cmd.waiting ++ [⟨.lost s.cmd.lost, s.time.secs⟩], lost := 0 }
    else s.cmd := by
  have happend : (appendReport (.lost s.cmd.lost) s).cmd =
      { s.cmd with waiting := s.cmd.waiting ++ [⟨.lost s.cmd.lost, s.time.secs⟩] } := by
    unfold appendReport
    dsimp only
    split <;> rfl
  rw [offerLost]
  split
  · dsimp only
    rw [happend]
  · rfl

theorem offerLost_silent {s : State} (h : s.cmd.lost = 0 ∨ room s.cmd = false) : offerLost s = s := by
  rw [offerLost, if_neg]
  rintro ⟨hl, hr⟩
  rcases h with h | h
  · omega
  · rw [h] at hr
    cases hr

/-- Settles O16: the tail word's write passes after it is snooped. -/
theorem tailWordMovesTheTail : Obligations.TailWordMovesTheTail := by
  refine ⟨fun s w c d h hw haddr hlen hcov hstr hhead htail => ?_, fun s w c d h hw hlo hno => ?_⟩
  · have hk : receptionOf s.img w d = .tail := by
      rw [receptionOf_window h hw, windowReception, hw.2.1]
      exact (controlReception_beyond haddr.ge).trans (if_pos (complete_tail_iff.2 ⟨haddr, hlen, hcov, hstr⟩))
    have hexec : exec (.tailWordWrite w.tag d) s = .next (passWrite w.tag d (snoopTail (leNat (d.map Lane.byte)) s)) := by
      show Host.Outcome.next (receive _ w.tag d s) = _
      rw [receive_eq h _ (by rw [hk]; rfl), hk]
      rfl
    rw [hexec]
    generalize leNat (d.map Lane.byte) = v
    obtain ⟨hpass, hkeep⟩ := passWrite_after (snoopTail_keeps v s .path (by decide)) (snoopTail_keeps v s) w.tag d
    refine ⟨_, rfl, hpass, fun hv hle => ?_, fun hno => ?_⟩
    · let u : State := { s with cmd := { s.cmd with tail := v } }
      have hsnoop : snoopTail v s = offerLost u := if_pos (tailAccepted_iff.2 ⟨hv, hle⟩)
      have hcmd : (passWrite w.tag d (snoopTail v s)).cmd = (offerLost u).cmd :=
        (passWrite_keeps w.tag d _ .cmd (by decide)).trans (congrArg State.cmd hsnoop)
      have hown : (passWrite w.tag d (snoopTail v s)).own = (offerLost u).own :=
        (passWrite_keeps w.tag d _ .own (by decide)).trans (congrArg State.own hsnoop)
      have hrings : (offerLost u).cmd.tail = v ∧ (offerLost u).cmd.head = s.cmd.head := by
        rw [offerLost_cmd]
        split <;> exact ⟨rfl, rfl⟩
      refine ⟨hkeep, by rw [hcmd]; exact hrings.1, by rw [hcmd]; exact hrings.2, ?_, fun hl hr => ?_, fun hs => ?_⟩
      · rw [State.irq, hcmd, hrings.1, hrings.2, bne_iff_ne]
      · rw [hcmd, offerLost_cmd, if_pos ⟨hl, hr⟩]
        exact ⟨rfl, rfl⟩
      · rw [hcmd, hown, offerLost_silent hs]
        exact ⟨rfl, rfl⟩
    · have hsnoop : snoopTail v s = { s with cmd := { s.cmd with tailIgnored := min (s.cmd.tailIgnored + 1) 4294967295 } } :=
        if_neg fun hacc => by
          obtain ⟨hv, hle⟩ := tailAccepted_iff.1 hacc
          omega
      rw [hsnoop]
      exact ⟨rfl, (passWrite_after (by rfl) (keeps_cmd _ s) w.tag d).2⟩
  · have hk : windowReception c w.txn d = .plain := by
      rw [windowReception, hw.2.1]
      exact (controlReception_beyond hlo).trans (if_neg (mt complete_tail_iff.1 hno))
    exact ⟨_, exec_received_unexamined h hw nofun hk, passWrite_spec w.tag d s⟩

/-! ### The boot record sector -/

theorem recordComplete_iff {t : TxnAddr} {d : List Lane} : recordComplete t d = true ↔
    t.addr.toNat = 0x1FFF0000 ∧ t.len = 32 ∧ covers t = true ∧ ∀ l ∈ d, l.strobe = true := by
  rw [recordComplete, complete_range_iff]
  simp only [Config.sectorBase, Config.recordSize]
  constructor
  · rintro ⟨hlo, -, -, hhi, hl, hc, hd⟩
    exact ⟨by omega, hl, hc, hd⟩
  · rintro ⟨ha, hl, hc, hd⟩
    exact ⟨by omega, by decide, by rw [ha], by omega, hl, hc, hd⟩

/-- Settles O19: a write into the sector is held for its check or refused at its reception. -/
theorem sectorWriteIsHeldOrRefused : Obligations.SectorWriteIsHeldOrRefused := by
  intro s w d h hlo hhi
  have hk : receptionOf s.img w d = .record := by
    rw [receptionOf, if_neg (by rw [h.notRefused]; decide), if_pos (inSector_iff.2 ⟨hlo, hhi⟩)]
  rw [exec_received h, hk]
  refine ⟨receiveRecord w d s, rfl, fun hc => ?_, fun hc => ?_⟩
  · have hheld : receiveRecord w d s = { hold w.tag (storeData w.tag d s) with img := { s.img with checks := s.img.checks ++ [w.tag] } } :=
      if_pos (recordComplete_iff.2 hc)
    rw [hheld]
    exact ⟨hold_heldWith w.tag d s, rfl, (keeps_path _ s).append (keeps_img _ _)⟩
  · have hrefused : receiveRecord w d s = reportRefusal .recordSector w.txn (refuseWrite w.tag s) :=
      if_neg (mt recordComplete_iff.1 hc)
    rw [hrefused]
    have hpath : (reportRefusal .recordSector w.txn (refuseWrite w.tag s)).path = (refuseWrite w.tag s).path := offer_path ..
    refine ⟨offer_img .., by rw [hpath]; rfl, fun x hx => refuseWrite_stage (hpath ▸ hx), ?_⟩
    exact .intro [_] ⟨rfl, rfl, rfl, rfl⟩ ((keeps_path _ s).append (keeps_img _ _))

end Sys2Proof.Machine

/-! SUPPORT. Tracked writes into the staging bank (R149, R150, R153). -/

namespace Sys2Proof.Machine

open Sys2Proof

/-! ### The Chunk Map -/

/-- The state after the first half of a tracked write: the Chunk Map or OUTSIDE has followed it (R149). -/
def mapFollowed (a : TxnAddr) (d : List Lane) (off : Nat) (s : State) : State :=
  if off < s.img.staging.length then setStaging (trackChunk s.img.staging a d off) s
  else { s with img := { s.img with outside := satInc count32 s.img.outside } }

theorem trackWrite_eq {s : State} {k : Bank} (hb : s.img.staging.bank = some k) (a : TxnAddr) (d : List Lane) :
    trackWrite a d s = followMap (a.addr.toNat - k.base) (mapFollowed a d (a.addr.toNat - k.base) s) := by
  simp only [trackWrite, hb]
  rfl

/-- Only the chunks and OUTSIDE are written. -/
theorem mapFollowed_eq (a : TxnAddr) (d : List Lane) (off : Nat) (s : State) : mapFollowed a d off s = { s with img := { s.img with
    staging := { s.img.staging with chunks := (mapFollowed a d off s).img.staging.chunks }
    outside := (mapFollowed a d off s).img.outside } } := by
  unfold mapFollowed
  split
  · show setStaging (trackChunk s.img.staging a d off) s = { s with img := { s.img with
      staging := { s.img.staging with chunks := (trackChunk s.img.staging a d off).chunks } } }
    unfold trackChunk
    split <;> rfl
  · rfl

theorem strobesSet_iff {d : List Lane} : strobesSet d = true ↔ ∀ l ∈ d, l.strobe = true := List.all_eq_true

/-- The chunk a write lies in goes on by the first case that applies (R149). -/
theorem nextChunk_spec (size : Nat) (k : Chunk) (a : TxnAddr) (d : List Lane) (off : Nat) :
    (a.burst ≠ .incr ∨ (∃ l ∈ d, l.strobe = false) → nextChunk size k a d off = ⟨.disordered, 0⟩) ∧
    (a.burst = .incr → (∀ l ∈ d, l.strobe = true) →
      (off % 65536 = 0 → nextChunk size k a d off = ⟨if size ≤ a.len then .complete else .filling, a.len⟩) ∧
      (off % 65536 ≠ 0 → off % 65536 = k.progress →
        nextChunk size k a d off = ⟨if size ≤ k.progress + a.len then .complete else .filling, k.progress + a.len⟩) ∧
      (off % 65536 ≠ 0 → off % 65536 ≠ k.progress → nextChunk size k a d off = ⟨.disordered, 0⟩)) := by
  refine ⟨fun hbad => ?_, fun hb hs => ⟨fun h0 => ?_, fun h0 hp => ?_, fun h0 hp => ?_⟩⟩
  · have : a.burst ≠ .incr ∨ strobesSet d = false := hbad.imp_right fun ⟨l, hl, h⟩ =>
      Bool.eq_false_iff.2 fun hall => absurd (strobesSet_iff.1 hall l hl) (by rw [h]; decide)
    rw [nextChunk, chunkProgress, if_pos this]
  all_goals
    have hgood : ¬(a.burst ≠ .incr ∨ strobesSet d = false) := by
      rintro (h | h)
      · exact h hb
      · rw [strobesSet_iff.2 hs] at h
        cases h
    rw [nextChunk, chunkProgress, if_neg hgood]
  · rw [if_pos (show off % Config.chunkSize = 0 from h0)]
  · rw [if_neg (show ¬off % Config.chunkSize = 0 from h0), if_pos (show off % Config.chunkSize = k.progress from hp)]
  · rw [if_neg (show ¬off % Config.chunkSize = 0 from h0), if_neg (show ¬off % Config.chunkSize = k.progress from hp)]

theorem mapFollowed_follows (a : TxnAddr) (d : List Lane) (off : Nat) (s : State) : ChunksFollow a d off s (mapFollowed a d off s) := by
  refine ⟨fun hout => ?_, fun hin => ?_⟩
  · rw [mapFollowed, if_neg (Nat.not_lt.2 hout)]
    exact ⟨rfl, rfl⟩
  · rw [mapFollowed, if_pos hin]
    refine ⟨rfl, fun c hc => ?_⟩
    have hindex : chunkIndex s.img.staging off = some c := by
      rw [chunkIndex, if_pos hin]
      exact indexOf_eq hc.symm
    have hchunks : (setStaging (trackChunk s.img.staging a d off) s).img.staging.chunks =
        vmod s.img.staging.chunks c fun k => nextChunk (chunkSizeOf s.img.staging c.val) k a d off := by
      show (trackChunk s.img.staging a d off).chunks = _
      rw [trackChunk, hindex]
    rw [hchunks]
    refine ⟨fun j hj => vmod_ne _ _ _ _ hj, ?_⟩
    rw [vmod_same]
    exact nextChunk_spec ..

/-- Only the chunks and OUTSIDE count. -/
theorem ChunksFollow.same {a : TxnAddr} {d : List Lane} {off : Nat} {s t u : State} (h : ChunksFollow a d off s t)
    (hc : u.img.staging.chunks = t.img.staging.chunks) (ho : u.img.outside = t.img.outside) : ChunksFollow a d off s u := by
  unfold ChunksFollow at h ⊢
  rw [hc, ho]
  exact h

/-! ### A tracked write outside a sweep -/

theorem enterComplete_img (s : State) : (enterComplete s).img = { s.img with staging := { s.img.staging with state := .complete } } :=
  offer_img ..

theorem enterComplete_reports (s : State) :
    Reports [.img] [.stageComplete s.img.staging.length s.img.staging.version s.img.staging.chunkCount] s (enterComplete s) :=
  .intro [_] ⟨rfl, rfl, rfl, rfl⟩ (keeps_img _ s)

/-- COMPLETE and its report when every chunk is, and RECEIVING or as before otherwise (R150). -/
theorem followMap_complete {s : State} (off : Nat) (hst : s.img.staging.state = .receiving ∨ s.img.staging.state = .verified)
    (hc : ChunksComplete s.img.staging) : followMap off s = enterComplete s := by
  have hall := (allComplete_iff _).2 hc
  rcases hst with hst | hst
  · simp only [followMap, hst, hall, if_true]
  · simp only [followMap, hst, completeOrReceiving, hall, if_true]

theorem followMap_stays {s : State} (off : Nat) (hst : s.img.staging.state = .complete ∨ s.img.staging.state = .corrupt)
    (hc : ChunksComplete s.img.staging) : followMap off s = s := by
  have hall := (allComplete_iff _).2 hc
  rcases hst with hst | hst <;> simp only [followMap, hst, hall, if_true]

theorem followMap_unfinished {s : State} (off : Nat) (hidle : s.img.staging.state ≠ .idle) (hver : s.img.staging.state ≠ .verifying)
    (hc : ¬ChunksComplete s.img.staging) : followMap off s = enterReceiving s := by
  have hall : allComplete s.img.staging = false := Bool.eq_false_iff.2 (mt (allComplete_iff _).1 hc)
  have hsame (h : s.img.staging.state = .receiving) : enterReceiving s = s := by
    show setStaging { s.img.staging with state := .receiving } s = s
    rw [← h]
    rfl
  cases hst : s.img.staging.state <;>
    simp_all [followMap, completeOrReceiving]

theorem Reports.passed {bs : List Block} {rs : List Report} {s u : State} (h : Reports bs rs s u) (tag : Nat) (d : List Lane) :
    Reports (.path :: bs) rs s (passWrite tag d u) :=
  ⟨(passWrite_keeps tag d u .cmd (by decide)).trans h.1, (passWrite_keeps tag d u .own (by decide)).trans h.2.1,
    (h.2.2.append (passWrite_keeps tag d u)).mono fun b hb => by
      rcases List.mem_append.1 hb with hb | hb
      · exact List.mem_cons_of_mem _ hb
      · exact List.mem_append_left _ (List.mem_singleton.1 hb ▸ List.mem_cons_self)⟩

/-- A write into the staging bank is received as one. -/
theorem exec_stagingWriteTracked {s : State} {w : WriteTx} {bank : Bank} {d : List Lane} (h : Receives s w d)
    (hidle : s.img.staging.state ≠ .idle) (hb : s.img.staging.bank = some bank) (hlo : bank.base ≤ w.txn.addr.toNat)
    (hhi : w.txn.addr.toNat < bank.base + 0x1000000) :
    exec (.stagingWriteTracked w.tag d) s = .next (passWrite w.tag d
      (followMap (w.txn.addr.toNat - bank.base) (mapFollowed w.txn d (w.txn.addr.toNat - bank.base) s))) := by
  have hsec : inSector w.txn.addr.toNat = false := Bool.eq_false_iff.2 fun hs => by
    have := (inSector_iff.1 hs).1
    cases bank <;> simp only [Bank.base, Config.bankABase, Config.bankBBase] at hhi <;> omega
  have hstg : inStaging s.img w.txn.addr.toNat = true := by
    rw [inStaging, hb, Option.any_some, inBank_iff.2 ⟨hlo, hhi⟩, Bool.and_true, bne_iff_ne]
    exact hidle
  have hk : receptionOf s.img w d = .staging := by
    rw [receptionOf, if_neg (by rw [h.notRefused]; decide), if_neg (by rw [hsec]; decide), if_pos hstg]
  show Host.Outcome.next (receive _ w.tag d s) = _
  rw [receive_eq h _ (by rw [hk]; rfl), hk]
  show Host.Outcome.next (passWrite w.tag d (trackWrite w.txn d s)) = _
  rw [trackWrite_eq hb]

/-- What the staging state becomes as it follows new chunks outside a sweep (R150). -/
theorem followMap_outside {s u : State} {chunks : Vector Chunk 256} {outside off : Nat} (hidle : s.img.staging.state ≠ .idle)
    (hver : s.img.staging.state ≠ .verifying)
    (hu : u = { s with img := { s.img with staging := { s.img.staging with chunks := chunks }, outside := outside } }) :
    ∃ st, (followMap off u).img =
        { s.img with staging := { s.img.staging with chunks := chunks, state := st }, outside := outside } ∧
      KeepsAllBut [.img, .cmd, .own] s (followMap off u) ∧
      (s.img.staging.state = .receiving ∨ s.img.staging.state = .verified → ChunksComplete { s.img.staging with chunks := chunks } →
        st = .complete ∧
          Reports [.img] [.stageComplete s.img.staging.length s.img.staging.version s.img.staging.chunkCount] s (followMap off u)) ∧
      (s.img.staging.state = .complete ∨ s.img.staging.state = .corrupt → ChunksComplete { s.img.staging with chunks := chunks } →
        st = s.img.staging.state ∧ KeepsAllBut [.img] s (followMap off u)) ∧
      (¬ChunksComplete { s.img.staging with chunks := chunks } → st = .receiving ∧ KeepsAllBut [.img] s (followMap off u)) := by
  have hcomplete := followMap_complete (s := u) off
  have hstays := followMap_stays (s := u) off
  have hunfinished := followMap_unfinished (s := u) off
  subst hu
  by_cases hc : ChunksComplete { s.img.staging with chunks := chunks }
  · by_cases hnew : s.img.staging.state = .receiving ∨ s.img.staging.state = .verified
    · have hold : ¬(s.img.staging.state = .complete ∨ s.img.staging.state = .corrupt) := by
        rcases hnew with h | h <;> rw [h] <;> decide
      rw [hcomplete hnew hc]
      have hrep : Reports [.img] [.stageComplete s.img.staging.length s.img.staging.version s.img.staging.chunkCount] s
          (enterComplete { s with img := { s.img with staging := { s.img.staging with chunks := chunks }, outside := outside } }) :=
        .intro [_] ⟨rfl, rfl, rfl, rfl⟩ (keeps_img _ s)
      exact ⟨.complete, enterComplete_img _, hrep.keeps, fun _ _ => ⟨rfl, hrep⟩, fun h => absurd h hold, fun h => absurd hc h⟩
    · have hold : s.img.staging.state = .complete ∨ s.img.staging.state = .corrupt := by
        cases hs : s.img.staging.state <;> simp_all
      rw [hstays hold hc]
      exact ⟨s.img.staging.state, rfl, (keeps_img _ s).mono (by decide), fun h => absurd h hnew, fun _ _ => ⟨rfl, keeps_img _ s⟩,
        fun h => absurd hc h⟩
  · rw [hunfinished hidle hver hc]
    exact ⟨.receiving, rfl, (keeps_img _ s).mono (by decide), fun _ h => absurd h hc, fun _ h => absurd h hc,
      fun _ => ⟨rfl, keeps_img _ s⟩⟩

/-- Settles O17: the Chunk Map follows first, and the staging state then follows the chunks by its three cases. -/
theorem stagingWriteFollowsTheChunkMap : Obligations.StagingWriteFollowsTheChunkMap := by
  intro s w bank d h hidle hver hb hlo hhi
  rw [exec_stagingWriteTracked h hidle hb hlo hhi]
  generalize w.txn.addr.toNat - bank.base = off
  obtain ⟨st, himg, hkeep, hnew, hold, hunfinished⟩ := followMap_outside (off := off) hidle hver (mapFollowed_eq w.txn d off s)
  have hfollow := mapFollowed_follows w.txn d off s
  generalize mapFollowed w.txn d off s = u at *
  generalize followMap off u = v at *
  have ht : (passWrite w.tag d v).img = _ := (passWrite_keeps w.tag d v .img (by decide)).trans himg
  have hpass {bs : List Block} (hk : KeepsAllBut bs s v) := passWrite_after (hkeep .path (by decide)) hk w.tag d
  refine ⟨_, rfl, passWrite_passes (hkeep .path (by decide)) w.tag d, hfollow.same (by rw [ht]) (by rw [ht]), ?_⟩
  rw [ht]
  refine ⟨rfl, rfl, fun hs hc => ?_, fun hs hc => ?_, fun hc => ?_⟩
  · obtain ⟨hst, hrep⟩ := hnew hs hc
    exact ⟨hst, hrep.passed w.tag d⟩
  · obtain ⟨hst, hk⟩ := hold hs hc
    exact ⟨hst, (hpass hk).2⟩
  · obtain ⟨hst, hk⟩ := hunfinished hc
    exact ⟨hst, (hpass hk).2⟩

/-! ### A tracked write in a sweep -/

/-- The staging context when its sweep has ended: the tag of a read already issued is kept, so that its data is discarded (R153). -/
theorem endSweep_eq (s : State) : ∃ stale, endSweep s = { s with
      img := { s.img with staging := { s.img.staging with sweep := none, stale := stale } }
      path := { s.path with sweepWait := 0 } } ∧
    ∀ v, s.img.staging.sweep = some v →
      (∀ tag, v.step = .reading tag → stale = s.img.staging.stale ++ [tag]) ∧
        ((∀ tag, v.step ≠ .reading tag) → stale = s.img.staging.stale) := by
  refine ⟨_, rfl, fun v hv => ?_⟩
  rw [hv]
  obtain ⟨_, _, _, _, _, step⟩ := v
  cases step with
  | awaiting => exact ⟨nofun, fun _ => rfl⟩
  | waiting => exact ⟨nofun, fun _ => rfl⟩
  | reading tag => exact ⟨fun tag' h => by cases h; rfl, fun h => absurd rfl (h tag)⟩

theorem completeOrReceiving_spec (s : State) : ∃ st,
    (completeOrReceiving s).img = { s.img with staging := { s.img.staging with state := st } } ∧ (completeOrReceiving s).path = s.path ∧
      (ChunksComplete s.img.staging → st = .complete ∧
        Reports [.img] [.stageComplete s.img.staging.length s.img.staging.version s.img.staging.chunkCount] s (completeOrReceiving s)) ∧
      (¬ChunksComplete s.img.staging → st = .receiving ∧ Reports [.img] [] s (completeOrReceiving s)) := by
  unfold completeOrReceiving
  split
  · next hall =>
    have hc := (allComplete_iff _).1 hall
    exact ⟨.complete, enterComplete_img s, offer_path .., fun _ => ⟨rfl, enterComplete_reports s⟩, fun h => absurd hc h⟩
  · next hall =>
    have hc := mt (allComplete_iff _).2 hall
    exact ⟨.receiving, rfl, rfl, fun h => absurd h hc, fun _ => ⟨rfl, .silent rfl rfl (keeps_img _ s)⟩⟩

/-- Reports offered one event after another, the second in a state that the first leaves for reports as `s` does. -/
theorem offered_twice {bs : List Block} {rs rs' : List Report} {s u t : State} (h : SameReporting (offerAll rs s) u) (h' : Reports bs rs' u t) :
    t.cmd = (offerAll (rs ++ rs') s).cmd ∧ t.own = (offerAll (rs ++ rs') s).own := by
  have hparts := offerAll_parts rs' h
  rw [offerAll_append]
  exact ⟨h'.1.trans hparts.cmd, h'.2.1.trans hparts.own⟩

/-- The interruption with its report, in the sweep that stood (R153). -/
theorem interruptSweep_eq {s u : State} {v : Sweep} {chunks : Vector Chunk 256} {outside : Nat} (hv : s.img.staging.sweep = some v)
    (hu : u = { s with img := { s.img with staging := { s.img.staging with chunks := chunks }, outside := outside } }) (off : Nat) :
    ∃ crc stale, interruptSweep off u = completeOrReceiving
        (offer (.verifyResult .interrupted crc s.img.staging.expectedCrc s.img.staging.version v.offset off) { s with
          img := { s.img with staging := { s.img.staging with chunks := chunks, sweep := none, stale := stale }, outside := outside }
          path := { s.path with sweepWait := 0 }
          free := s.free + 1 }) ∧
      (∀ tag, v.step = .reading tag → stale = s.img.staging.stale ++ [tag]) ∧
      ((∀ tag, v.step ≠ .reading tag) → stale = s.img.staging.stale) := by
  obtain ⟨stale, hend, hstale⟩ := endSweep_eq u
  have hoffset : sweepOffset u.img.staging = v.offset := by rw [hu, sweepOffset, hv]
  have hstale' := hstale v (by rw [hu]; exact hv)
  rw [interruptSweep, hoffset, hend]
  subst hu
  exact ⟨_, stale, rfl, hstale'⟩

/-- Settles O18: the Chunk Map follows, the sweep ends with its report, and the state is that of the chunks. -/
theorem stagingWriteInterruptsTheSweep : Obligations.StagingWriteInterruptsTheSweep := by
  intro s w bank v d h hver hb hv hlo hhi
  rw [exec_stagingWriteTracked h (by rw [hver]; decide) hb hlo hhi]
  generalize w.txn.addr.toNat - bank.base = off
  have hfollow := mapFollowed_follows w.txn d off s
  have hmap := mapFollowed_eq w.txn d off s
  have hkeep := followMap_keeps off (mapFollowed w.txn d off s)
  generalize mapFollowed w.txn d off s = u at *
  obtain ⟨crc, stale, hinterrupt, hstale⟩ := interruptSweep_eq hv hmap off
  have hfollows : followMap off u = interruptSweep off u := by
    rw [followMap, hmap]
    simp only [hver]
  rw [hfollows, hinterrupt] at hkeep ⊢
  let r : Report := .verifyResult .interrupted crc s.img.staging.expectedCrc s.img.staging.version v.offset off
  generalize hx : ({ s with
    img := { s.img with
      staging := { s.img.staging with chunks := u.img.staging.chunks, sweep := none, stale := stale }, outside := u.img.outside }
    path := { s.path with sweepWait := 0 }
    free := s.free + 1 } : State) = x at hkeep ⊢
  have hoffered : SameReporting (offer r s) (offer r x) := offer_parts r (by rw [← hx]; exact ⟨rfl, rfl, rfl, rfl⟩)
  obtain ⟨st, himg, hpath, hcomplete, hreceiving⟩ := completeOrReceiving_spec (offer r x)
  have hximg := congrArg State.img hx
  have hxpath := congrArg State.path hx
  dsimp only at hximg hxpath
  rw [offer_img, ← hximg] at himg hcomplete hreceiving
  rw [offer_path, ← hxpath] at hpath
  have hkeeps : KeepsAllBut [.img, .path, .free, .cmd, .own] s (completeOrReceiving (offer r x)) := by
    refine KeepsAllBut.trans ?_ hkeep
    rw [hmap]
    exact (keeps_img _ s).mono (by decide)
  generalize completeOrReceiving (offer r x) = z at *
  have ht : (passWrite w.tag d z).img = _ := (passWrite_keeps w.tag d z .img (by decide)).trans himg
  have hcmd : (passWrite w.tag d z).cmd = z.cmd := passWrite_keeps w.tag d z .cmd (by decide)
  have hown : (passWrite w.tag d z).own = z.own := passWrite_keeps w.tag d z .own (by decide)
  refine ⟨_, crc, rfl, (hkeeps.append (passWrite_keeps w.tag d z)).mono (by decide), passWrite_passes hpath w.tag d,
    hfollow.same (by rw [ht]) (by rw [ht]), ?_⟩
  rw [ht, hcmd, hown]
  refine ⟨rfl, rfl, hstale.1, hstale.2, fun hc => ?_, fun hc => ?_⟩
  · obtain ⟨hst, hrep⟩ := hcomplete hc
    exact ⟨hst, offered_twice (rs := [r]) hoffered hrep⟩
  · obtain ⟨hst, hrep⟩ := hreceiving hc
    exact ⟨hst, offered_twice (rs := [r]) hoffered hrep⟩

end Sys2Proof.Machine

/-! SUPPORT. Header fields of captured frames (R20 to R24). -/

namespace Sys2Proof.Machine

open Sys2Proof

/-! ### Header fields -/

theorem slice_one {bs : List Byte} {off : Nat} (h : off < bs.length) : slice bs off 1 = [bs[off]] := by
  rw [slice, List.drop_eq_getElem_cons h]
  rfl

theorem headerField_one (bs : List Byte) (off : Nat) : headerField bs off 1 = (netByte bs off).map BitVec.toNat := by
  unfold headerField netByte
  by_cases h : off < bs.length
  · rw [if_pos (by omega), slice_one h, List.getElem?_eq_getElem h]
    simp [beNat, leNat]
  · rw [if_neg (by omega), List.getElem?_eq_none (Nat.not_lt.1 h)]
    rfl

theorem netByte_eq (bs : List Byte) (off : Nat) : netByte bs off = (headerField bs off 1).map (BitVec.ofNat 8) := by
  rw [headerField_one, Option.map_map]
  cases netByte bs off with
  | none => rfl
  | some b => simp

theorem headerField_two (bs : List Byte) (off : Nat) : headerField bs off 2 =
    (netByte bs off).bind fun b0 => (netByte bs (off + 1)).map fun b1 => 256 * b0.toNat + b1.toNat := by
  unfold headerField netByte
  by_cases h : off + 1 < bs.length
  · have hslice : slice bs off 2 = [bs[off], bs[off + 1]] := by
      rw [slice, List.drop_eq_getElem_cons (by omega), List.drop_eq_getElem_cons h]
      rfl
    rw [if_pos (by omega), hslice, List.getElem?_eq_getElem (by omega), List.getElem?_eq_getElem h]
    simp [beNat, leNat]
    omega
  · rw [if_neg (by omega), List.getElem?_eq_none (i := off + 1) (Nat.not_lt.1 h)]
    cases bs[off]? <;> rfl

theorem dscp4_eq (bs : List Byte) (o : Nat) : dscp4 bs o = (headerField bs (o + 1) 1).map fun b => BitVec.ofNat 6 (b / 4) := by
  rw [dscp4, headerField_one, Option.map_map]
  congr 1
  funext b
  apply BitVec.eq_of_toNat_eq
  simp [BitVec.extractLsb'_toNat, Nat.shiftRight_eq_div_pow]

theorem dscp6_eq (bs : List Byte) (o : Nat) : dscp6 bs o = (headerField bs o 2).map fun w => BitVec.ofNat 6 (w / 64 % 64) := by
  rw [dscp6, headerField_two]
  cases netByte bs o with
  | none => rfl
  | some b0 =>
    cases netByte bs (o + 1) with
    | none => rfl
    | some b1 =>
      refine congrArg some (BitVec.eq_of_toNat_eq ?_)
      have h0 := b0.isLt
      have h1 := b1.isLt
      simp only [BitVec.toNat_append, BitVec.extractLsb'_toNat, BitVec.toNat_ofNat, Nat.shiftRight_eq_div_pow]
      rw [Nat.shiftLeft_eq, Nat.mul_comm _ (2 ^ 2), ← Nat.two_pow_add_eq_or_of_lt (Nat.mod_lt _ (by decide))]
      norm_num only
      omega

/-! ### The parse of a frame -/

/-- The EtherType in use and the offset behind it, by the tag (R21). -/
theorem etherType_eq {bs : List Byte} {o : Nat} {type : Option Nat}
    (ho : headerField bs 12 2 = some 0x8100 ∧ o = 18 ∨ headerField bs 12 2 ≠ some 0x8100 ∧ o = 14) (ht : type = headerField bs (o - 2) 2) :
    etherType bs = (type, o) := by
  subst ht
  rcases ho with ⟨h, rfl⟩ | ⟨h, rfl⟩
  · exact if_pos h
  · exact if_neg h

theorem kindOf_ipv4 {type : Option Nat} : kindOf type = .ipv4 ↔ type = some 0x0800 := by
  unfold kindOf
  split
  · next h => simp [h]
  · next h => split <;> simp [h]

theorem kindOf_ipv6 {type : Option Nat} : kindOf type = .ipv6 ↔ type = some 0x86DD := by
  unfold kindOf
  split
  · next h => simp [h]
  · split <;> simp_all

/-- The two ports of a record, read where `portsAt` says. -/
theorem portsFrom_taken {bs : List Byte} {proto : Option Byte} {t : Nat} {r : Capture} (hp : proto = some 6 ∨ proto = some 17)
    (hr : (r.srcPort, r.dstPort) = portsAt bs proto (some t)) : PortsFrom bs (some t) r := by
  rw [portsAt, if_pos hp] at hr
  obtain ⟨hs, hd⟩ := Prod.mk.inj hr
  exact ⟨hs, hd⟩

theorem portsFrom_absent {bs : List Byte} {proto : Option Byte} {t : Option Nat} {r : Capture}
    (h : t = none ∨ proto ≠ some 6 ∧ proto ≠ some 17) (hr : (r.srcPort, r.dstPort) = portsAt bs proto t) : PortsFrom bs none r := by
  have hnone : portsAt bs proto t = (none, none) := by
    cases t with
    | none => rfl
    | some t =>
      obtain ⟨h6, h17⟩ := h.resolve_left nofun
      exact if_neg fun hp => hp.elim h6 h17
  obtain ⟨hs, hd⟩ := Prod.mk.inj (hr.trans hnone)
  exact ⟨hs, hd⟩

/-- The transport offset of an IPv4 header, by the length that its first byte gives (R22). -/
theorem transport4_some {bs : List Byte} {o h : Nat} (hh : headerField bs o 1 = some h) (h5 : 5 ≤ h % 16) :
    transport4 bs o = some (o + 4 * (h % 16)) := by
  rw [headerField_one] at hh
  obtain ⟨b, hb, rfl⟩ := Option.map_eq_some_iff.1 hh
  simp only [transport4, hb, h5, if_true]

theorem transport4_none {bs : List Byte} {o : Nat} (h : ∀ h, headerField bs o 1 = some h → h % 16 < 5) : transport4 bs o = none := by
  rw [headerField_one] at h
  unfold transport4
  split
  · rfl
  · next b hb => exact if_neg (Nat.not_le.2 (h b.toNat (by rw [hb]; rfl)))

section Kinds

variable {key now o : Nat} {bs : List Byte} {type : Option Nat} (he : etherType bs = (type, o))

include he

theorem parseFrame_kind : (parseFrame key now bs).kind = kindOf type := by
  unfold parseFrame
  rw [he]
  dsimp only
  cases kindOf type <;> rfl

theorem parseFrame_ipv4 (h : kindOf type = .ipv4) : parseFrame key now bs = { parseFrame key now bs with
    proto := netByte bs (o + 9), srcFold := netWord bs (o + 12), dstFold := netWord bs (o + 16), dscp := dscp4 bs o
    srcPort := (portsAt bs (netByte bs (o + 9)) (transport4 bs o)).1
    dstPort := (portsAt bs (netByte bs (o + 9)) (transport4 bs o)).2 } := by
  simp only [parseFrame, he, h]

theorem parseFrame_ipv6 (h : kindOf type = .ipv6) : parseFrame key now bs = { parseFrame key now bs with
    proto := netByte bs (o + 6), srcFold := netFold6 bs (o + 8), dstFold := netFold6 bs (o + 24), dscp := dscp6 bs o
    srcPort := (portsAt bs (netByte bs (o + 6)) (some (o + 40))).1
    dstPort := (portsAt bs (netByte bs (o + 6)) (some (o + 40))).2 } := by
  simp only [parseFrame, he, h]

theorem parseFrame_other (h : kindOf type = .other) : parseFrame key now bs = { parseFrame key now bs with
    proto := none, srcFold := none, dstFold := none, dscp := none, srcPort := none, dstPort := none } := by
  simp only [parseFrame, he, h]

end Kinds

/-- Settles O13: the record is read off `parseFrame` kind by kind. -/
theorem headerFieldsStandAtTheirOffsets : Obligations.HeaderFieldsStandAtTheirOffsets := by
  intro key now bs
  obtain ⟨hkey, hdst, hup⟩ := parseFrame_frame key now bs
  refine ⟨_, rfl, hkey, hup, hdst, fun o type ho ht => ?_⟩
  have he := etherType_eq ho ht
  rw [parseFrame_kind he, kindOf_ipv4, kindOf_ipv6]
  refine ⟨Iff.rfl, Iff.rfl, fun h => ?_, fun h => ?_, fun h => ?_⟩
  · rw [parseFrame_ipv4 he (kindOf_ipv4.2 h)]
    refine ⟨netByte_eq .., rfl, rfl, dscp4_eq .., fun h hh h5 hp => ?_, fun habs => ?_⟩
    · exact portsFrom_taken hp (by rw [← transport4_some hh h5])
    · exact portsFrom_absent (habs.imp_left transport4_none) rfl
  · rw [parseFrame_ipv6 he (kindOf_ipv6.2 h)]
    exact ⟨netByte_eq .., rfl, rfl, dscp6_eq .., fun hp => portsFrom_taken hp rfl, 
      fun hp => portsFrom_absent (t := some (o + 40)) (.inr hp) rfl⟩
  · rw [parseFrame_other he h]
    exact ⟨rfl, rfl, rfl, rfl, rfl, rfl⟩

end Sys2Proof.Machine

/-! SUPPORT. Classification, admission and the disposition of descriptors (R66 to R75, R86 to R90, R99 to R106). -/

namespace Sys2Proof.Machine

open Sys2Proof

/-! ### Rules and keys -/

theorem Cond.test_iff {c : Cond} {v : Nat} : c.test v = true ↔ Related c v := by
  simp [Cond.test, Related, or_assoc]

theorem Cond.enabled_eq_false {c : Cond} : c.enabled = false ↔ Disabled c := by
  simp [Cond.enabled, Disabled, and_assoc]

theorem Cond.testOpt_iff {n : Nat} {c : Cond} {o : Option (BitVec n)} :
    c.testOpt (o.map BitVec.toNat) = true ↔ ∃ v, o = some v ∧ Related c v.toNat := by
  simp only [Cond.testOpt, Option.any_eq_true, Option.map_eq_some_iff, ← Cond.test_iff]
  exact ⟨fun ⟨_, ⟨v, hv, he⟩, ht⟩ => ⟨v, hv, he ▸ ht⟩, fun ⟨v, hv, ht⟩ => ⟨_, ⟨v, hv, rfl⟩, ht⟩⟩

theorem Cond.holds_iff {c : Cond} {cap : Capture} {len : Nat} : c.holds cap len = true ↔ ConditionTrue c cap len := by
  unfold Cond.holds ConditionTrue
  cases c.field <;> simp only [Bool.or_eq_true, Cond.testOpt_iff, Cond.test_iff]

theorem Rule.matches_iff {r : Rule} {cap : Capture} {len : Nat} : r.matches cap len = true ↔
    (Disabled r.c0 ∨ ConditionTrue r.c0 cap len) ∧ (Disabled r.c1 ∨ ConditionTrue r.c1 cap len) := by
  simp only [Rule.matches, Bool.and_eq_true, Bool.or_eq_true, Bool.not_eq_true', Cond.enabled_eq_false, Cond.holds_iff]

theorem decidingSlot_some {rules : Vector (Option Rule) 32} {cap : Capture} {len : Nat} {k : Fin 32} {r : Rule} (hr : rules[k] = some r)
    (hm : r.matches cap len = true) (hlow : ∀ j : Fin 32, j < k → ∀ r', rules[j] = some r' → r'.matches cap len = false) :
    decidingSlot rules cap len = some k ∧ matchList rules cap len = (r.cls, r.allowance) := by
  have hslot : decidingSlot rules cap len = some k := by
    refine vfind_eq_some (by rw [hr]; exact hm) fun j hj => ?_
    cases hj' : rules[j] with
    | none => rfl
    | some r' => exact hlow j hj r' hj'
  refine ⟨hslot, ?_⟩
  simp only [matchList, hslot, hr]

theorem decidingSlot_none {rules : Vector (Option Rule) 32} {cap : Capture} {len : Nat}
    (h : ∀ (k : Fin 32) (r : Rule), rules[k] = some r → r.matches cap len = false) :
    decidingSlot rules cap len = none ∧ matchList rules cap len = (.normal, 0) := by
  have hslot : decidingSlot rules cap len = none := by
    refine vfind_none.2 fun j => ?_
    cases hj : rules[j] with
    | none => rfl
    | some r => exact h j r hj
  refine ⟨hslot, ?_⟩
  simp only [matchList, hslot]

/-- A decision is counted in its slot or in the default count, and nowhere else. -/
theorem countDecision_eq (slot : Option (Fin 32)) (c : Classifier) : countDecision slot c = { c with
    decisions := (countDecision slot c).decisions, defaultCount := (countDecision slot c).defaultCount } := by
  cases slot <;> rfl

/-! ### Learning -/

/-- The place of a new entry: the lowest free one, or that of the oldest unpinned flow, which is evicted (R74, R75). -/
theorem placeFor_place {c : Classifier} {i : Fin 256}
    (h : c.flows[i] = none ∧ (∀ j : Fin 256, j < i → c.flows[j] ≠ none) ∨
      ∃ f, c.flows[i] = some f ∧ f.pinned = false ∧ (∀ j : Fin 256, c.flows[j] ≠ none) ∧
        ∀ (j : Fin 256) (g : Flow), c.flows[j] = some g → g.pinned = false → f.lastSeen < g.lastSeen ∨ f.lastSeen = g.lastSeen ∧ i ≤ j) :
    ∃ flows evicted, placeFor c = some (i, { c with flows := flows, evicted := evicted }) ∧ OtherEntries i c.flows flows ∧
      (c.flows[i] = none → evicted = c.evicted) ∧ (c.flows[i] ≠ none → evicted = min (c.evicted + 1) 4294967295) := by
  rcases h with ⟨hfree, hlow⟩ | ⟨f, hf, hp, hfull, hold⟩
  · exact ⟨c.flows, c.evicted, placeFor_free hfree hlow, .refl i _, fun _ => rfl, fun h => absurd hfree h⟩
  · exact ⟨vput c.flows i none, min (c.evicted + 1) 4294967295, placeFor_evict hfull ⟨hf, hp, hold⟩, fun j hj => vput_ne _ _ _ _ hj,
      fun h => absurd h (hfull i), fun _ => rfl⟩

/-- The entry learnt and the Classifier behind it, once the place is known. -/
theorem learn_eq {c : Classifier} {cap : Capture} {len now : Nat} {station : Option (Fin 128)} {i : Fin 256}
    {flows : Vector (Option Flow) 256} {evicted : Nat}
    (h : placeFor (countDecision (decidingSlot c.rules cap len) c) =
      some (i, { countDecision (decidingSlot c.rules cap len) c with flows := flows, evicted := evicted })) :
    learn cap len now station c =
      (⟨(matchList c.rules cap len).1, (matchList c.rules cap len).2, some i⟩,
        { countDecision (decidingSlot c.rules cap len) c with
          flows := vput flows i (some (learntFlow cap.flowKey (matchList c.rules cap len).1 (matchList c.rules cap len).2 now station))
          evicted := evicted
          learned := min (c.learned + 1) 4294967295 }) := by
  simp only [learn, h]
  rw [countDecision_eq]
  rfl

/-- Settles O26: a hit brings the entry up, a miss is decided by the Match List and learnt in its place. -/
theorem flowsAreLearntOnceAndThenFound : Obligations.FlowsAreLearntOnceAndThenFound := by
  refine ⟨fun r cap len => Rule.matches_iff, fun cap => ?_, fun c cap len now station => ⟨fun i e hf he => ?_, fun i hf hplace => ?_, rfl⟩⟩
  · refine ⟨fun v h => ?_, fun h => ?_, fun v h => ?_, fun h => ?_, fun v h => ?_, fun h => ?_, fun v h => ?_, fun h => ?_, fun v h => ?_,
      fun h => ?_⟩ <;> simp only [Capture.flowKey, h] <;> rfl
  · have hclass : classify (some cap) len now station c = (⟨e.cls, e.allowance, some i⟩, putFlow i (some (hitFlow now station e)) c) := by
      simp only [classify, hf, he]
    exact ⟨_, _, hclass, rfl, rfl, rfl, vput_same _ _ _, fun j hj => vput_ne _ _ _ _ hj, rfl⟩
  · obtain ⟨flows, evicted, hp, hother, hfree, hevict⟩ :=
      placeFor_place (c := countDecision (decidingSlot c.rules cap len) c) (by rw [countDecision_eq]; exact hplace)
    have hclass : classify (some cap) len now station c = learn cap len now station c := by
      simp only [classify, hf]
    rw [hclass, learn_eq hp]
    have hcount := countDecision_eq (decidingSlot c.rules cap len) c
    have hflows : (countDecision (decidingSlot c.rules cap len) c).flows = c.flows := by rw [hcount]
    have hevicted : (countDecision (decidingSlot c.rules cap len) c).evicted = c.evicted := by rw [hcount]
    rw [hflows] at hother hfree hevict
    rw [hevicted] at hfree hevict
    refine ⟨_, _, _, rfl, rfl, vput_same _ _ _, rfl, rfl, rfl, rfl, rfl, rfl, rfl, rfl, rfl, rfl,
      fun j hj => (vput_ne _ _ _ _ hj).trans (hother j hj), rfl, hfree, hevict, by rw [hcount], by rw [hcount], by rw [hcount],
      fun k r hr hm hlow => ?_, fun hnone => ?_⟩
    · obtain ⟨hslot, hlist⟩ := decidingSlot_some hr hm hlow
      rw [hslot, hlist]
      exact ⟨rfl, rfl, vmod_same _ _ _, fun j hj => vmod_ne _ _ _ _ hj, rfl⟩
    · obtain ⟨hslot, hlist⟩ := decidingSlot_none hnone
      rw [hslot, hlist]
      exact ⟨rfl, rfl, rfl, rfl⟩

/-! ### Admission -/

section Admission

variable {slot : Fin 16} {len allowance : Nat} {f : Fin 256} {e : Flow} {station : Option (Fin 128)} {noUrgent : Bool} {s : State}

theorem admission_urgent (hf : s.cls.flows[f] = some e) :
    admission slot len ⟨.urgent, allowance, some f⟩ station noUrgent s = admitUrgent slot len f e station noUrgent s := by
  simp only [admission, hf]

theorem admitUrgent_withheld (hn : noUrgent = true) : admitUrgent slot len f e station noUrgent s =
    (.normal, modAdmSlot slot (fun a => { a with withheld := satInc count32 a.withheld }) s) := by
  rw [admitUrgent, if_pos hn]

theorem admitUrgent_overAllowance (hn : noUrgent = false) (h : e.allowance * 64 < e.periodBytes + len) :
    admitUrgent slot len f e station noUrgent s =
      (.normal, modAdmSlot slot (fun a => { a with spillAllowance := satInc count32 a.spillAllowance })
        (modFlow f (fun e => { e with overFlag := true }) s)) := by
  rw [admitUrgent, if_neg (by rw [hn]; decide), if_neg]
  rw [flowTest, decide_eq_true_eq]
  exact Nat.not_le.2 h

theorem capTest_iff {a : AdmSlot} : capTest a len = true ↔ a.cap = 0 ∨ a.urgent + len ≤ a.cap * 64 := by
  simp [capTest]

theorem admitUrgent_overCap (hn : noUrgent = false) (h : e.periodBytes + len ≤ e.allowance * 64)
    (hc : ¬(s.adm.slots[slot].cap = 0 ∨ s.adm.slots[slot].urgent + len ≤ s.adm.slots[slot].cap * 64)) :
    admitUrgent slot len f e station noUrgent s =
      (.normal, modAdmSlot slot (fun a => { a with spillCap := satInc count32 a.spillCap }) s) := by
  rw [admitUrgent, if_neg (by rw [hn]; decide), if_pos (show flowTest e len = true from decide_eq_true h), if_neg (mt capTest_iff.1 hc)]

theorem admitUrgent_admitted (hn : noUrgent = false) (h : e.periodBytes + len ≤ e.allowance * 64)
    (hc : s.adm.slots[slot].cap = 0 ∨ s.adm.slots[slot].urgent + len ≤ s.adm.slots[slot].cap * 64) :
    admitUrgent slot len f e station noUrgent s = (.urgent, chargeUrgent slot len f station s) := by
  rw [admitUrgent, if_neg (by rw [hn]; decide), if_pos (show flowTest e len = true from decide_eq_true h), if_pos (capTest_iff.2 hc)]

theorem modFlow_at (g : Flow → Flow) (hf : s.cls.flows[f] = some e) : (modFlow f g s).cls.flows[f] = some (g e) := by
  show (vmod s.cls.flows f (Option.map g))[f] = _
  rw [vmod_same, hf]
  rfl

/-- What an admission leaves of the parts it writes (R88, R90). -/
theorem chargeUrgent_parts (slot : Fin 16) (len : Nat) (f : Fin 256) (station : Option (Fin 128)) (s : State) :
    (chargeUrgent slot len f station s).cls = (modFlow f (fun e => { e with periodBytes := e.periodBytes + len }) s).cls ∧
      (chargeUrgent slot len f station s).adm = { s.adm with
        slots := vmod s.adm.slots slot fun a => { a with urgent := a.urgent + len, admitted := satInc count32 a.admitted }
        admitted := true, activity := true } ∧
      (chargeUrgent slot len f station s).sta = (stampUrgent station s).sta := by
  cases station <;> exact ⟨rfl, rfl, rfl⟩

/-- An admission writes one slot's counters and one flow. -/
theorem admitUrgent_others : OtherEntries slot s.adm.slots (admitUrgent slot len f e station noUrgent s).2.adm.slots ∧
    OtherEntries f s.cls.flows (admitUrgent slot len f e station noUrgent s).2.cls.flows := by
  unfold admitUrgent
  split
  · exact ⟨fun j hj => vmod_ne _ _ _ _ hj, .refl f _⟩
  · split
    · split
      · obtain ⟨hcls, hadm, -⟩ := chargeUrgent_parts slot len f station s
        dsimp only
        rw [hcls, hadm]
        exact ⟨fun j hj => vmod_ne _ _ _ _ hj, fun j hj => vmod_ne _ _ _ _ hj⟩
      · exact ⟨fun j hj => vmod_ne _ _ _ _ hj, .refl f _⟩
    · exact ⟨fun j hj => vmod_ne _ _ _ _ hj, fun j hj => vmod_ne _ _ _ _ hj⟩

end Admission

/-- Settles O25: one case for each row of Table 5.2 and each test. -/
theorem urgentAdmissionTestsFlowThenCap : Obligations.UrgentAdmissionTestsFlowThenCap := by
  intro slot len allowance f e station noUrgent s hf
  have hkeep := admission_keeps slot len ⟨.urgent, allowance, some f⟩ station noUrgent s
  rw [admission_urgent hf] at hkeep
  refine ⟨rfl, rfl, rfl, (admitUrgent slot len f e station noUrgent s).1, (admitUrgent slot len f e station noUrgent s).2,
    admission_urgent hf, KeepsAllBut.mono hkeep (by decide), admitUrgent_others.1, admitUrgent_others.2, fun hn => ?_, fun hn h => ?_,
    fun hn h h0 hcap => ?_, fun hn h hcap => ?_⟩
  · rw [admitUrgent_withheld hn]
    exact ⟨rfl, vmod_same _ _ _, rfl, rfl, rfl⟩
  · rw [admitUrgent_overAllowance hn h]
    exact ⟨rfl, vmod_same _ _ _, rfl, rfl, modFlow_at (fun e => { e with overFlag := true }) hf, rfl⟩
  · rw [admitUrgent_overCap hn h fun hc => hc.elim h0 (Nat.not_le.2 hcap)]
    exact ⟨rfl, vmod_same _ _ _, rfl, rfl, rfl⟩
  · rw [admitUrgent_admitted hn h hcap]
    obtain ⟨hcls, hadm, hsta⟩ := chargeUrgent_parts slot len f station s
    dsimp only
    rw [hcls, hadm, hsta]
    refine ⟨rfl, vmod_same _ _ _, rfl, modFlow_at _ hf, rfl, ?_, fun h => by rw [h]; rfl, fun i st h hst => ?_⟩
    · cases station <;> rfl
    · subst h
      refine ⟨?_, fun j hj => ?_⟩
      · rw [stampUrgent, modStation_at, if_pos rfl, hst]
        rfl
      · rw [hsta, stampUrgent, modStation_at, if_neg hj]

/-! ### One disposition (R100) -/

/-- The counts of a slot go from `a` to `b` as one disposition with rewritten bytes says: forwarded for a role, discarded, or parked. -/
def OneDisposition (d : Descriptor) (a b : SlotCounts) (bytes : List Byte) : Prop :=
  (b.forwarded = min (a.forwarded + 1) 4294967295 ∧ b.discarded = a.discarded ∧ b.parked = a.parked ∧
    ∃ role, bytes = setQueue d.bytes d.layout (roleQueue d.record.queues role)) ∨
  (b.forwarded = a.forwarded ∧ b.discarded = min (a.discarded + 1) 4294967295 ∧ b.parked = a.parked ∧
    bytes = setFlag d.bytes d.layout.discard) ∨
  (b.forwarded = a.forwarded ∧ b.discarded = a.discarded ∧ b.parked = min (a.parked + 1) 4294967295 ∧
    bytes = setQueue d.bytes d.layout d.record.queues.park)

/-- A decision counts one disposition in the descriptor's slot, and changes nothing else of the Rewriter. -/
def DisposedOnce (d : Descriptor) (s : State) (r : Decision) : Prop :=
  ∃ f, r.state.rew = (modCounts d.slot f s).rew ∧ OneDisposition d s.rew.counts[d.slot] (f s.rew.counts[d.slot]) r.bytes

/-- The counts of a forwarded descriptor (R105). -/
def countForwarded (uncaptured unresolved : Bool) (c : SlotCounts) : SlotCounts :=
  { c with forwarded := satInc count32 c.forwarded,
           uncaptured := if uncaptured then satInc count32 c.uncaptured else c.uncaptured,
           unresolved := if unresolved then satInc count32 c.unresolved else c.unresolved }

section Disposed

variable {d : Descriptor} {s u : State}

theorem forwardDescriptor_disposes (hr : u.rew = s.rew) (role : Role) (station : Option (Fin 128)) (uncaptured unresolved : Bool) :
    DisposedOnce d s (forwardDescriptor d role station uncaptured unresolved u) := by
  refine ⟨countForwarded uncaptured unresolved, (modResolved_keeps station _ _ .rew (by decide)).trans ?_,
    .inl ⟨rfl, rfl, rfl, role, rfl⟩⟩
  rw [modCounts, hr]
  rfl

theorem discardDescriptor_disposes (hr : u.rew = s.rew) (station : Option (Fin 128)) (overflow : Bool) :
    DisposedOnce d s (discardDescriptor d station overflow u) := by
  refine ⟨fun c => { c with discarded := satInc count32 c.discarded }, (modResolved_keeps station _ _ .rew (by decide)).trans ?_,
    .inr (.inl ⟨rfl, rfl, rfl, rfl⟩)⟩
  rw [modCounts, hr]
  rfl

theorem parkDescriptor_disposes (hr : u.rew = s.rew) (i : Fin 128) : DisposedOnce d s (parkDescriptor d i u) := by
  refine ⟨fun c => { c with parked := satInc count32 c.parked }, ?_, .inr (.inr ⟨rfl, rfl, rfl, rfl⟩)⟩
  show (modCounts d.slot _ u).rew = _
  rw [modCounts, hr]
  rfl

theorem classifyStep_disposes (hr : u.rew = s.rew) (cap : Option Capture) (station : Option (Fin 128)) (noUrgent unresolved : Bool) :
    DisposedOnce d s (classifyStep d cap station noUrgent unresolved u) := by
  refine forwardDescriptor_disposes ?_ _ _ _ _
  exact (admission_keeps _ _ _ _ _ _ .rew (by decide)).trans hr

theorem gateStep_disposes (hr : u.rew = s.rew) (cap : Capture) (i : Fin 128) (st : Station) : DisposedOnce d s (gateStep d cap i st u) := by
  unfold gateStep handoffStep
  split
  · exact discardDescriptor_disposes hr _ _
  · split
    · have hpark := (parkRequest_keeps st.slot d.addr d.len d.slot u .rew (by decide)).trans hr
      dsimp only
      split
      · exact parkDescriptor_disposes hpark i
      · exact discardDescriptor_disposes hpark _ _
    · exact classifyStep_disposes hr _ _ _ _

/-- Each of the five steps that ends a disposition disposes once. -/
theorem decide5_disposes (d : Descriptor) (s : State) : DisposedOnce d s (decide5 d s) := by
  unfold decide5
  split
  · exact classifyStep_disposes rfl _ _ _ _
  · unfold stationStep
    split
    · exact classifyStep_disposes (by rfl) _ _ _ _
    · split
      · exact classifyStep_disposes (by rfl) _ _ _ _
      · exact gateStep_disposes (by rfl) _ _ _

end Disposed

theorem exec_descriptorDisposition {s : State} {w : WriteTx} {rest : List Nat} {d : Descriptor} (ho : s.rew.order = w.tag :: rest)
    (hw : findWrite s.path w.tag = some w) (hd : descriptorOf w = some d) : exec .descriptorDisposition s =
      .next (releaseRewritten w.tag (decide5 d (dropHeld s)).bytes (decide5 d (dropHeld s)).state) := by
  change execDescriptorDisposition s = _
  simp only [execDescriptorDisposition, descriptorDisposition, nextHeld, ho, hw, hd]

/-- Every decision of a descriptor releases it, rewritten, and takes it out of the decision order. -/
theorem releaseRewritten_decide5 {s : State} {tag : Nat} {rest : List Nat} (ho : s.rew.order = tag :: rest) (d : Descriptor) :
    (releaseRewritten tag (decide5 d (dropHeld s)).bytes (decide5 d (dropHeld s)).state).path = { s.path with
        writes := s.path.writes.map fun x =>
          if x.tag = tag then { x with data := withBytes x.data (decide5 d (dropHeld s)).bytes, stage := .ready } else x
        ready := s.path.ready ++ [tag] } ∧
      (decide5 d (dropHeld s)).state.rew.order = rest ∧
      OtherEntries d.slot s.rew.counts (decide5 d (dropHeld s)).state.rew.counts := by
  obtain ⟨f, hrew, -⟩ := decide5_disposes d (dropHeld s)
  refine ⟨?_, ?_, ?_⟩
  · rw [releaseRewritten_path, decide5_keeps d (dropHeld s) .path (by decide)]
    rfl
  · rw [hrew]
    exact congrArg List.tail ho
  · rw [hrew]
    exact fun j hj => vmod_ne _ _ _ _ hj

/-- Settles O21: one disposition by `decide5_disposes`, and one rewrite at the release. -/
theorem descriptorIsDecidedExactlyOnce : Obligations.DescriptorIsDecidedExactlyOnce := by
  intro s w rest c p ho hw hwin hlay
  let d : Descriptor := ⟨c.slot, c.record, p, w.txn.addr.toNat, fieldIn c.record.order (laneBytes w.data) p.addrOff 4,
    fieldIn c.record.order (laneBytes w.data) p.lenOff 2, laneBytes w.data⟩
  have hd : descriptorOf w = some d := by simp only [descriptorOf, hwin, hlay]; rfl
  obtain ⟨hpath, horder, hother⟩ := releaseRewritten_decide5 ho d
  obtain ⟨f, hrew, hone⟩ := decide5_disposes d (dropHeld s)
  have hcount : (decide5 d (dropHeld s)).state.rew.counts[c.slot] = f s.rew.counts[c.slot] := by
    rw [hrew]
    exact vmod_same _ _ _
  refine ⟨_, (decide5 d (dropHeld s)).bytes, exec_descriptorDisposition ho hw hd, hpath, horder, hother,
    ((decide5_keeps d _).decided _ _).mono (by decide), ?_⟩
  rw [releaseRewritten_rew, hcount]
  refine hone.imp_left fun ⟨hf, hdis, hp, role, hb⟩ => ⟨hf, hdis, hp, ?_⟩
  cases role
  · exact .inl hb
  · exact .inr (.inl hb)
  · exact .inr (.inr hb)

/-! ### Steps 2 to 4 -/

section Gate

variable {d : Descriptor} {cap : Capture} {i : Fin 128} {st : Station} {s : State}

/-- The state in which a captured descriptor is decided: the front of the order and the capture are taken. -/
def consumed (key : Nat) (s : State) : State :=
  { dropHeld s with capture := { s.capture with records := s.capture.records.filter fun r => r.key != key } }

theorem consumed_keeps (key : Nat) (s : State) : KeepsAllBut [.rew, .capture] s (consumed key s) :=
  (dropHeld_keeps s).append (keeps_capture _ _)

theorem decide5_captured (hc : (s.capture.records.find? fun r => r.key == d.buffer) = some cap) :
    decide5 d (dropHeld s) = stationStep d cap (consumed d.buffer s) := by
  have hconsume : consume d.buffer (dropHeld s).capture =
      some (cap, { s.capture with records := s.capture.records.filter fun r => r.key != d.buffer }) := by
    show consume d.buffer s.capture = _
    rw [consume, hc]
  rw [decide5, hconsume]
  rfl

theorem stationStep_station (hf : findStation s.sta cap.dst = some i) (hst : s.sta.stations[i] = some st) :
    stationStep d cap s = gateStep d cap i st s := by
  simp only [stationStep, hf, hst]

theorem gateStep_closed (h : st.closed = true) : gateStep d cap i st s = discardDescriptor d (some i) false s := by
  rw [gateStep, if_pos h]

theorem gateStep_handoff (h : st.closed = false) (hh : st.state = .handoff) : gateStep d cap i st s =
    if (parkRequest st.slot d.addr d.len d.slot s).1 then parkDescriptor d i (parkRequest st.slot d.addr d.len d.slot s).2
    else discardDescriptor d (some i) true (parkRequest st.slot d.addr d.len d.slot s).2 := by
  rw [gateStep, if_neg (by rw [h]; decide), handoffStep, if_pos hh]

theorem parkRequest_granted {k : Fin 16} {o : Occupied} (hk : s.hold.slots[k] = .occupied o) (h : o.list.length < 32)
    (addr len : Nat) (slot : Fin 16) : parkRequest (some k) addr len slot s = (true, { s with hold := { s.hold with
      slots := vput s.hold.slots k
        (.occupied { o with requests := min (o.requests + 1) 255, list := o.list ++ [⟨addr, len, slot, o.requests⟩] })
      free := s.hold.free - 1 } }) := by
  have hin : parkIn addr len slot o =
      (true, { o with requests := min (o.requests + 1) 255, list := o.list ++ [⟨addr, len, slot, o.requests⟩] }) := if_pos h
  simp only [parkRequest, hk, hin]
  rfl

theorem parkRequest_full {k : Fin 16} {o : Occupied} (hk : s.hold.slots[k] = .occupied o) (h : 32 ≤ o.list.length)
    (addr len : Nat) (slot : Fin 16) : parkRequest (some k) addr len slot s =
      (false, putSlot k (.occupied { o with requests := min (o.requests + 1) 255 }) s) := by
  have hin : parkIn addr len slot o = (false, { o with requests := min (o.requests + 1) 255 }) := if_neg (Nat.not_lt.2 h)
  simp only [parkRequest, hk, hin]
  rfl

/-- A decision that touches no station but its own. -/
theorem discardDescriptor_station (overflow : Bool) (hst : s.sta.stations[i] = some st) :
    OthersKept i s (discardDescriptor d (some i) overflow s).state ∧
      (discardDescriptor d (some i) overflow s).state.sta.stations[i] = some { st with
        discarded := min (st.discarded + 1) 4294967295
        overflow := if overflow then min (st.overflow + 1) 65535 else st.overflow } ∧
      (discardDescriptor d (some i) overflow s).state.rew.counts[d.slot].discarded =
        min (s.rew.counts[d.slot].discarded + 1) 4294967295 := by
  refine ⟨fun j hj => (modStation_at ..).trans (if_neg hj), (modStation_at ..).trans ?_, ?_⟩
  · rw [if_pos rfl]
    exact congrArg _ hst
  · show (vmod s.rew.counts d.slot _)[d.slot].discarded = _
    rw [vmod_same]
    rfl

theorem parkDescriptor_station (hst : s.sta.stations[i] = some st) :
    OthersKept i s (parkDescriptor d i s).state ∧
      (parkDescriptor d i s).state.sta.stations[i] = some { st with parked := min (st.parked + 1) 4294967295, active := true } ∧
      (parkDescriptor d i s).state.rew.counts[d.slot].parked = min (s.rew.counts[d.slot].parked + 1) 4294967295 := by
  refine ⟨fun j hj => (modStation_at ..).trans (if_neg hj), (modStation_at ..).trans ?_, ?_⟩
  · rw [if_pos rfl]
    exact congrArg _ hst
  · show (vmod s.rew.counts d.slot _)[d.slot].parked = _
    rw [vmod_same]
    rfl

/-- A CLOSED gate and a HANDOFF decide without the Flow Table, the admission counters and the other stations. -/
theorem gateStep_early (h : st.closed = true ∨ st.state = .handoff) (hst : s.sta.stations[i] = some st) :
    KeepsAllBut [.hold, .rew, .sta] s (gateStep d cap i st s).state ∧ OthersKept i s (gateStep d cap i st s).state := by
  by_cases hc : st.closed = true
  · rw [gateStep_closed hc]
    exact ⟨(discardDescriptor_keeps d (some i) false s).mono (by decide), (discardDescriptor_station false hst).1⟩
  · have hpark := parkRequest_keeps st.slot d.addr d.len d.slot s
    have hst' : (parkRequest st.slot d.addr d.len d.slot s).2.sta.stations[i] = some st := by rw [hpark .sta (by decide)]; exact hst
    have hothers {u : State} (ho : OthersKept i (parkRequest st.slot d.addr d.len d.slot s).2 u) : OthersKept i s u := fun j hj =>
      (ho j hj).trans (by rw [hpark .sta (by decide)])
    rw [gateStep_handoff (Bool.eq_false_iff.2 hc) (h.resolve_left hc)]
    split
    · exact ⟨hpark.append (parkDescriptor_keeps d i _), hothers (parkDescriptor_station hst').1⟩
    · exact ⟨hpark.append (discardDescriptor_keeps d (some i) true _), hothers (discardDescriptor_station true hst').1⟩

section Handoff

variable {k : Fin 16} {o : Occupied} (hopen : st.closed = false) (hh : st.state = .handoff) (hslot : st.slot = some k)
  (hk : s.hold.slots[k] = .occupied o) (hst : s.sta.stations[i] = some st)

include hopen hh hslot hk hst

/-- With room on its hold list a station in HANDOFF has the descriptor parked (R104, R132). -/
theorem gateStep_parks (hroom : o.list.length < 32) : OtherEntries k s.hold.slots (gateStep d cap i st s).state.hold.slots ∧
    (gateStep d cap i st s).state.hold.slots[k] =
      .occupied { o with requests := min (o.requests + 1) 255, list := o.list ++ [⟨d.addr, d.len, d.slot, o.requests⟩] } ∧
    (gateStep d cap i st s).state.hold.free = s.hold.free - 1 ∧
    (gateStep d cap i st s).state.sta.stations[i] = some { st with parked := min (st.parked + 1) 4294967295, active := true } ∧
    (gateStep d cap i st s).state.rew.counts[d.slot].parked = min (s.rew.counts[d.slot].parked + 1) 4294967295 := by
  have hpark := parkRequest_granted hk hroom d.addr d.len d.slot
  rw [← hslot] at hpark
  rw [gateStep_handoff hopen hh, hpark, if_pos rfl]
  exact ⟨fun j hj => vput_ne _ _ _ _ hj, vput_same _ _ _, rfl, (parkDescriptor_station (s := { s with hold := _ }) hst).2⟩

/-- Without room it is discarded, and the overflow counted. -/
theorem gateStep_overflows (hfull : 32 ≤ o.list.length) : OtherEntries k s.hold.slots (gateStep d cap i st s).state.hold.slots ∧
    (gateStep d cap i st s).state.hold.slots[k] = .occupied { o with requests := min (o.requests + 1) 255 } ∧
    (gateStep d cap i st s).state.hold.free = s.hold.free ∧
    (gateStep d cap i st s).state.sta.stations[i] =
      some { st with discarded := min (st.discarded + 1) 4294967295, overflow := min (st.overflow + 1) 65535 } ∧
    (gateStep d cap i st s).state.rew.counts[d.slot].discarded = min (s.rew.counts[d.slot].discarded + 1) 4294967295 := by
  have hpark := parkRequest_full hk hfull d.addr d.len d.slot
  rw [← hslot] at hpark
  rw [gateStep_handoff hopen hh, hpark, if_neg Bool.false_ne_true]
  exact ⟨fun j hj => vput_ne _ _ _ _ hj, vput_same _ _ _, rfl, (discardDescriptor_station (s := putSlot k _ s) true hst).2⟩

end Handoff

end Gate

/-- Settles O23: the gate and the handoff decide before step 5. -/
theorem gateAndHandoffDecideBeforeClassification : Obligations.GateAndHandoffDecideBeforeClassification := by
  intro s w rest d cap i st ho hw hd hcap hf hst
  have hdecide : decide5 d (dropHeld s) = gateStep d cap i st (consumed d.buffer s) :=
    (decide5_captured hcap).trans (stationStep_station hf hst)
  refine ⟨_, exec_descriptorDisposition ho hw hd, ?_⟩
  rw [hdecide]
  refine ⟨fun h => ?_, fun h => ?_, fun k o hopen hh hslot hk => ?_⟩
  · obtain ⟨hkeep, hothers⟩ := gateStep_early (d := d) (cap := cap) (s := consumed d.buffer s) h hst
    exact ⟨hkeep .capture (by decide), hothers, hkeep .cls (by decide), hkeep .adm (by decide)⟩
  · rw [gateStep_closed h]
    obtain ⟨-, hat, hcount⟩ := discardDescriptor_station (d := d) (s := consumed d.buffer s) false hst
    exact ⟨hat, discardDescriptor_keeps d (some i) false (consumed d.buffer s) .hold (by decide), hcount⟩
  · by_cases hroom : o.list.length < 32
    · obtain ⟨hother, hparked⟩ := gateStep_parks (d := d) (cap := cap) (s := consumed d.buffer s) hopen hh hslot hk hst hroom
      exact ⟨hother, fun _ => hparked, fun hfull => absurd hroom (Nat.not_lt.2 hfull)⟩
    · obtain ⟨hother, hover⟩ :=
        gateStep_overflows (d := d) (cap := cap) (s := consumed d.buffer s) hopen hh hslot hk hst (Nat.not_lt.1 hroom)
      exact ⟨hother, fun h => absurd h hroom, fun _ => hover⟩

/-! ### Step 5 -/

/-- One part less: a part of a frame that is in fact as it was. -/
theorem KeepsAllBut.without {b : Block} {bs cs : List Block} {s t : State} (h : KeepsAllBut bs s t) (hb : State.sameAt b s t)
    (hsub : ∀ c ∈ bs, c = b ∨ c ∈ cs) : KeepsAllBut cs s t := fun c hc => by
  by_cases hcb : c = b
  · exact hcb ▸ hb
  · exact h c fun hmem => (hsub c hmem).elim hcb hc

section Step5

variable {slot : Fin 16} {len : Nat} {answer : ClassAnswer} {station : Option (Fin 128)} {noUrgent : Bool} {u v : State}

theorem chargeUrgent_same (f : Fin 256) (hc : v.cls = u.cls) (ha : v.adm = u.adm) :
    (chargeUrgent slot len f station v).cls = (chargeUrgent slot len f station u).cls ∧
      (chargeUrgent slot len f station v).adm = (chargeUrgent slot len f station u).adm := by
  obtain ⟨hcu, hau, -⟩ := chargeUrgent_parts slot len f station u
  obtain ⟨hcv, hav, -⟩ := chargeUrgent_parts slot len f station v
  rw [hcu, hcv, hau, hav, modFlow, modFlow, hc, ha]
  exact ⟨rfl, rfl⟩

/-- An admission depends on the Flow Table and the Admission Unit alone. -/
theorem admission_same (hc : v.cls = u.cls) (ha : v.adm = u.adm) :
    (admission slot len answer station noUrgent v).1 = (admission slot len answer station noUrgent u).1 ∧
      (admission slot len answer station noUrgent v).2.cls = (admission slot len answer station noUrgent u).2.cls ∧
      (admission slot len answer station noUrgent v).2.adm = (admission slot len answer station noUrgent u).2.adm := by
  unfold admission
  rw [hc]
  split
  · exact ⟨rfl, hc, ha⟩
  · exact ⟨rfl, hc, ha⟩
  · exact ⟨rfl, hc, ha⟩
  · split
    · exact ⟨rfl, hc, ha⟩
    · split
      · exact ⟨rfl, hc, ha⟩
      · unfold admitUrgent modAdmSlot modFlow
        rw [hc, ha]
        split
        · exact ⟨rfl, rfl, rfl⟩
        · split
          · split
            · exact ⟨rfl, chargeUrgent_same _ hc ha⟩
            · exact ⟨rfl, rfl, rfl⟩
          · exact ⟨rfl, rfl, rfl⟩

theorem admitUrgent_sta (f : Fin 256) (e : Flow) :
    ((admitUrgent slot len f e station noUrgent u).1 = .urgent →
      (admitUrgent slot len f e station noUrgent u).2.sta = (stampUrgent station u).sta) ∧
    ((admitUrgent slot len f e station noUrgent u).1 ≠ .urgent → (admitUrgent slot len f e station noUrgent u).2.sta = u.sta) := by
  unfold admitUrgent
  by_cases hn : noUrgent = true
  · rw [if_pos hn]
    exact ⟨nofun, fun _ => rfl⟩
  · rw [if_neg hn]
    by_cases hf : flowTest e len = true
    · rw [if_pos hf]
      by_cases hc : capTest u.adm.slots[slot] len = true
      · rw [if_pos hc]
        exact ⟨fun _ => (chargeUrgent_parts slot len f station u).2.2, fun h => absurd rfl h⟩
      · rw [if_neg hc]
        exact ⟨nofun, fun _ => rfl⟩
    · rw [if_neg hf]
      exact ⟨nofun, fun _ => rfl⟩

/-- The station of an admitted descriptor is stamped, and no other (R90). -/
theorem admission_sta :
    ((admission slot len answer station noUrgent u).1 = .urgent →
      (admission slot len answer station noUrgent u).2.sta = (stampUrgent station u).sta) ∧
    ((admission slot len answer station noUrgent u).1 ≠ .urgent → (admission slot len answer station noUrgent u).2.sta = u.sta) := by
  obtain ⟨cls, allowance, entry⟩ := answer
  unfold admission
  cases cls with
  | urgent =>
    cases entry with
    | none => exact ⟨nofun, fun _ => rfl⟩
    | some f =>
      dsimp only
      split
      · exact ⟨nofun, fun _ => rfl⟩
      · exact admitUrgent_sta f _
  | _ => exact ⟨nofun, fun _ => rfl⟩

end Step5

theorem classifyStep_eq {d : Descriptor} {cap : Option Capture} {station : Option (Fin 128)} {noUrgent : Bool} {u v : State}
    {answer : ClassAnswer} {c : Classifier} {role : Role} (hc : classify cap d.len u.time.secs station u.cls = (answer, c))
    (ha : admission d.slot d.len answer station noUrgent { u with cls := c } = (role, v)) (unresolved : Bool) :
    classifyStep d cap station noUrgent unresolved u = forwardDescriptor d role station cap.isNone unresolved v := by
  simp only [classifyStep, State.now, hc, ha]

/-- The counts that step 5 leaves in the slot, as the statement writes them. -/
theorem countForwarded_eq {a : SlotCounts} {uncaptured unresolved : Bool} (hc : uncaptured = true ∨ a.uncaptured ≤ 4294967295)
    (hr : unresolved = true ∨ a.unresolved ≤ 4294967295) : countForwarded uncaptured unresolved a = { a with
      forwarded := min (a.forwarded + 1) 4294967295
      uncaptured := min (a.uncaptured + uncaptured.toNat) 4294967295
      unresolved := min (a.unresolved + unresolved.toNat) 4294967295 } := by
  have hkept {b : Bool} {n : Nat} (h : b = true ∨ n ≤ 4294967295) : (if b then satInc count32 n else n) = min (n + b.toNat) 4294967295 := by
    cases b with
    | true => rfl
    | false => exact (Nat.min_eq_left (h.resolve_left nofun)).symm
  rw [countForwarded, hkept hc, hkept hr]
  rfl

/-- A descriptor that step 5 forwards: its queue field, its release and the counts of its slot. -/
theorem decide5_forwards {s v : State} {tag : Nat} {rest : List Nat} {d : Descriptor} {role : Role} {station : Option (Fin 128)}
    {uncaptured unresolved : Bool} {q : BitVec 4} {n m : Nat} (ho : s.rew.order = tag :: rest)
    (hdec : decide5 d (dropHeld s) = forwardDescriptor d role station uncaptured unresolved v) (hv : v.rew = (dropHeld s).rew)
    (hq : roleQueue d.record.queues role = q) (hn : uncaptured.toNat = n) (hm : unresolved.toNat = m)
    (hc : uncaptured = true ∨ s.rew.counts[d.slot].uncaptured ≤ 4294967295)
    (hr : unresolved = true ∨ s.rew.counts[d.slot].unresolved ≤ 4294967295) :
    let t := releaseRewritten tag (decide5 d (dropHeld s)).bytes (decide5 d (dropHeld s)).state
    t.path = { s.path with
        writes := s.path.writes.map fun x => if x.tag = tag then
          { x with data := withBytes x.data (setQueue d.bytes d.layout q), stage := .ready } else x
        ready := s.path.ready ++ [tag] } ∧
      t.rew.order = rest ∧ OtherEntries d.slot s.rew.counts t.rew.counts ∧
      t.rew.counts[d.slot] = { s.rew.counts[d.slot] with
        forwarded := min (s.rew.counts[d.slot].forwarded + 1) 4294967295
        uncaptured := min (s.rew.counts[d.slot].uncaptured + n) 4294967295
        unresolved := min (s.rew.counts[d.slot].unresolved + m) 4294967295 } := by
  subst hq hn hm
  obtain ⟨hpath, horder, hother⟩ := releaseRewritten_decide5 ho d
  have hbytes : (decide5 d (dropHeld s)).bytes = setQueue d.bytes d.layout (roleQueue d.record.queues role) := by rw [hdec]; rfl
  have hcount : (decide5 d (dropHeld s)).state.rew.counts[d.slot] = countForwarded uncaptured unresolved s.rew.counts[d.slot] := by
    rw [hdec]
    show (modResolved station _ (modCounts d.slot (countForwarded uncaptured unresolved) v)).rew.counts[d.slot] = _
    rw [modResolved_keeps station _ _ .rew (by decide)]
    show (vmod v.rew.counts d.slot _)[d.slot] = _
    rw [vmod_same, hv]
    rfl
  refine ⟨hbytes ▸ hpath, horder, hother, ?_⟩
  rw [releaseRewritten_rew, hcount]
  exact countForwarded_eq hc hr

theorem stationStep_keeps (d : Descriptor) (cap : Capture) (s : State) :
    KeepsAllBut [.cls, .adm, .sta, .rew, .hold] s (stationStep d cap s).state := by
  unfold stationStep
  split
  · exact (classifyStep_keeps _ _ _ _ _ s).mono (by decide)
  · split
    · exact (classifyStep_keeps _ _ _ _ _ s).mono (by decide)
    · exact gateStep_keeps _ _ _ _ s

/-- A captured descriptor in step 5: the admission in the state without the capture does what it does in the state before. -/
theorem decide5_classified {s u : State} {d : Descriptor} {cap : Capture} {station : Option (Fin 128)} {noUrgent unresolved : Bool}
    {answer : ClassAnswer} {c : Classifier} {role : Role}
    (hdec : decide5 d (dropHeld s) = classifyStep d (some cap) station noUrgent unresolved (consumed d.buffer s))
    (hclass : classify (some cap) d.len s.time.secs station s.cls = (answer, c))
    (hadm : admission d.slot d.len answer station noUrgent { s with cls := c } = (role, u)) :
    ∃ v, decide5 d (dropHeld s) = forwardDescriptor d role station false unresolved v ∧
      KeepsAllBut [.cls, .adm, .sta] (consumed d.buffer s) v ∧ v.cls = u.cls ∧ v.adm = u.adm ∧
      (role = .urgent → v.sta = (stampUrgent station { consumed d.buffer s with cls := c }).sta) ∧
      (role ≠ .urgent → v.sta = s.sta) := by
  obtain ⟨hrole, hcls, hunit⟩ := admission_same (slot := d.slot) (len := d.len) (answer := answer) (station := station)
    (noUrgent := noUrgent) (u := { s with cls := c }) (v := { consumed d.buffer s with cls := c }) rfl rfl
  obtain ⟨hurgent, hother⟩ := admission_sta (slot := d.slot) (len := d.len) (answer := answer) (station := station)
    (noUrgent := noUrgent) (u := { consumed d.buffer s with cls := c })
  have hkeep := (keeps_cls c (consumed d.buffer s)).append (admission_keeps d.slot d.len answer station noUrgent _)
  rw [hadm] at hrole hcls hunit
  rw [hrole] at hurgent hother
  have heq := classifyStep_eq (d := d) (u := consumed d.buffer s) hclass (v := (admission d.slot d.len answer station noUrgent
    { consumed d.buffer s with cls := c }).2) (Prod.ext hrole rfl) unresolved
  exact ⟨_, hdec.trans heq, hkeep.mono (by decide), hcls, hunit, hurgent, hother⟩

/-- Settles O24: each way into step 5 is `classifyStep`, whose admission reads nothing that the earlier steps changed. -/
theorem otherDescriptorsAreClassifiedAndForwarded : Obligations.OtherDescriptorsAreClassifiedAndForwarded := by
  intro s w rest d ho hw hd
  refine ⟨_, exec_descriptorDisposition ho hw hd, fun hnone hr => ?_, fun cap hcap hc hr => ⟨?_, ?_, ?_⟩⟩
  · have hconsume : consume d.buffer (dropHeld s).capture = none := by
      show consume d.buffer s.capture = none
      rw [consume, List.find?_eq_none.2 fun r hr => by simpa using hnone r hr]
    have hdec : decide5 d (dropHeld s) = forwardDescriptor d .normal none true false (dropHeld s) := by
      rw [decide5, hconsume]
      rfl
    have hkeep : KeepsAllBut [.rew] (dropHeld s) (decide5 d (dropHeld s)).state := by
      rw [hdec]
      exact modCounts_keeps d.slot _ (dropHeld s)
    exact ⟨decide5_forwards ho hdec rfl rfl rfl rfl (.inl rfl) (.inr hr), (hkeep.decided _ _).mono (by decide)⟩
  · rw [decide5_captured hcap]
    exact (releaseRewritten_keeps _ _ _ .capture (by decide)).trans (stationStep_keeps d cap (consumed d.buffer s) .capture (by decide))
  · intro answer c role u hf hclass hadm
    have hstep : stationStep d cap (consumed d.buffer s) =
        classifyStep d (some cap) none false (!isGroup cap.dst) (consumed d.buffer s) := by
      rw [stationStep]
      simp only [show findStation (consumed d.buffer s).sta cap.dst = none from hf]
    obtain ⟨v, hdec, hkeep, hcls, hunit, hurgent, hother⟩ := decide5_classified ((decide5_captured hcap).trans hstep) hclass hadm
    have hsta : v.sta = s.sta := by
      by_cases hrole : role = .urgent
      · exact hurgent hrole
      · exact hother hrole
    have hforward : KeepsAllBut [.rew] v (decide5 d (dropHeld s)).state := by
      rw [hdec]
      exact modCounts_keeps d.slot _ v
    have hfrom : KeepsAllBut [.rew, .capture, .cls, .adm] s (decide5 d (dropHeld s)).state :=
      (((consumed_keeps d.buffer s).append hkeep).append hforward).without (b := .sta)
        ((hforward .sta (by decide)).trans hsta) (by decide)
    refine ⟨decide5_forwards ho hdec (hkeep .rew (by decide)) rfl rfl ?_ (.inr hc) (.inr hr),
      (hforward .cls (by decide)).trans hcls, (hforward .adm (by decide)).trans hunit,
      (hfrom.append (releaseRewritten_keeps _ _ _)).mono (by decide)⟩
    cases isGroup cap.dst <;> rfl
  · intro i st answer c role u hf hst hopen hh hclass hadm
    have hstep : stationStep d cap (consumed d.buffer s) =
        classifyStep d (some cap) (some i) st.noUrgent false (consumed d.buffer s) := by
      rw [stationStep_station (s := consumed d.buffer s) hf hst, gateStep, if_neg (by rw [hopen]; decide), handoffStep, if_neg hh]
    obtain ⟨v, hdec, hkeep, hcls, hunit, hurgent, hother⟩ := decide5_classified ((decide5_captured hcap).trans hstep) hclass hadm
    have hstamp : OthersKept i s v ∧ v.sta.unknown = s.sta.unknown ∧ v.sta.carry = s.sta.carry ∧
        v.sta.stations[i] = some { st with lastUrgent := if role = .urgent then some s.time.secs else st.lastUrgent } := by
      by_cases hrole : role = .urgent
      · rw [if_pos hrole, OthersKept, hurgent hrole]
        exact ⟨fun j hj => (modStation_at ..).trans (if_neg hj), rfl, rfl,
          (modStation_at ..).trans ((if_pos rfl).trans (congrArg _ hst))⟩
      · rw [if_neg hrole, OthersKept, hother hrole]
        exact ⟨fun _ _ => rfl, rfl, rfl, hst⟩
    obtain ⟨hothers, hunknown, hcarry, hat⟩ := hstamp
    have hcount : (decide5 d (dropHeld s)).state = modStation i
        (fun x => { x with forwarded := satInc count32 x.forwarded, active := true }) (modCounts d.slot (countForwarded false false) v) := by
      rw [hdec]
      rfl
    have hforward : KeepsAllBut [.rew, .sta] v (decide5 d (dropHeld s)).state := by
      rw [hcount]
      exact (modCounts_keeps d.slot _ v).append (modStation_keeps i _ _)
    refine ⟨decide5_forwards ho hdec (hkeep .rew (by decide)) rfl rfl rfl (.inr hc) (.inr hr), (hforward .cls (by decide)).trans hcls,
      (hforward .adm (by decide)).trans hunit, ?_, ?_, ?_, ?_,
      ((((consumed_keeps d.buffer s).append hkeep).append hforward).append (releaseRewritten_keeps _ _ _)).mono (by decide)⟩
    · intro j hj
      rw [releaseRewritten_sta, hcount]
      exact ((modStation_at ..).trans (if_neg hj)).trans (hothers j hj)
    · rw [releaseRewritten_sta, hcount]
      exact hunknown
    · rw [releaseRewritten_sta, hcount]
      exact hcarry
    · rw [releaseRewritten_sta, hcount]
      exact (modStation_at ..).trans ((if_pos rfl).trans (congrArg _ hat))

end Sys2Proof.Machine

/-! SUPPORT. Reports offered, the end of a command, and the answers to the own writes. -/

namespace Sys2Proof.Machine

open Sys2Proof

/-! ### Reports offered (O33) -/

theorem appendReport_cmd (r : Report) (s : State) :
    (appendReport r s).cmd = { s.cmd with waiting := s.cmd.waiting ++ [⟨r, s.time.secs⟩] } := by
  unfold appendReport
  dsimp only
  split <;> rfl

theorem offer_room {s : State} (r : Report) (h : room (offerLost s).cmd = true) : (offer r s).cmd =
    { (offerLost s).cmd with waiting := (offerLost s).cmd.waiting ++ [⟨r, s.time.secs⟩] } := by
  rw [offer, if_pos h, appendReport_cmd, offerLost_keeps s .time (by decide)]

/-- Without room nothing is queued, and the report is counted (R162). -/
theorem offer_full {s : State} (r : Report) (h : room s.cmd = false) :
    offer r s = { s with cmd := { s.cmd with lost := min (s.cmd.lost + 1) 65535 } } := by
  rw [offer, offerLost_silent (.inr h), if_neg (by rw [h]; decide)]
  rfl

/-- With no LOST record pending and room, the report is queued. -/
theorem offer_queued {s : State} (r : Report) (hl : s.cmd.lost = 0) (h : room s.cmd = true) :
    (offer r s).cmd = { s.cmd with waiting := s.cmd.waiting ++ [⟨r, s.time.secs⟩] } := by
  have hlost := offerLost_silent (.inl hl)
  rw [offer_room r (hlost.symm ▸ h), hlost]

/-- A pending LOST record is queued before it. -/
theorem offerLost_queued {s : State} (hl : 0 < s.cmd.lost) (h : room s.cmd = true) :
    (offerLost s).cmd = { s.cmd with waiting := s.cmd.waiting ++ [⟨.lost s.cmd.lost, s.time.secs⟩], lost := 0 } := by
  rw [offerLost_cmd, if_pos ⟨hl, h⟩]

/-- Settles O33: the LOST record takes one place of the room there is. -/
theorem offeredReportIsQueuedOrCounted : Obligations.OfferedReportIsQueuedOrCounted := by
  intro s r hhead htail
  dsimp only
  have hroom := room_iff s.cmd
  have hlost := room_iff { s.cmd with waiting := s.cmd.waiting ++ [⟨.lost s.cmd.lost, s.time.secs⟩], lost := 0 }
  simp only [List.length_append, List.length_singleton] at hlost
  refine ⟨fun h => ?_, fun hu hn hl => offer_queued r hl (hroom.2 ⟨hu, hn⟩), fun hu hn hl => ?_, fun hu hn h hl => ?_,
    (offer_keeps r s).mono (by decide)⟩
  · rw [offer_full r (Bool.eq_false_iff.2 fun ht => by have := hroom.1 ht; omega)]
    exact ⟨rfl, rfl⟩
  · have hq := offerLost_queued hl (hroom.2 (by omega))
    rw [offer_room r (by rw [hq]; exact hlost.2 (by omega)), hq]
    simp only [List.append_assoc, List.singleton_append]
  · have hq := offerLost_queued hl (hroom.2 (by omega))
    rw [offer, if_neg (by rw [hq]; exact fun ht => by have := hlost.1 ht; omega)]
    dsimp only
    rw [hq]
    rfl

/-! ### The end of a command (O34) -/

/-- The state in which the end of a command looks for a held command write. -/
def ended (status : Status) (result : List Byte) (c : List Byte) (s : State) : State :=
  let t := offer (.completion status (leNat (slice c 2 2)) (byteAt c 0) (if status = .done then result else [])) s
  { t with cmd := { t.cmd with queue := t.cmd.queue.tail, executing := .idle } }

theorem completeCommand_ended {s : State} {c : List Byte} {rest : List (List Byte)} (hq : s.cmd.queue = c :: rest) (status : Status)
    (result : List Byte) : completeCommand status result s = captureHeld (ended status result c s) := by
  unfold completeCommand
  rw [hq]
  rfl

theorem captureHeld_none {s : State} (h : s.cmd.held = []) : captureHeld s = s := by
  rw [captureHeld, h]

theorem captureHeld_oldest {s : State} {tag : Nat} {others : List Nat} {w : WriteTx} (h : s.cmd.held = tag :: others)
    (hroom : s.cmd.queue.length < 8) (hw : findWrite s.path tag = some w) :
    captureHeld s = release tag (capture (laneBytes w.data) { s with cmd := { s.cmd with held := others } }) := by
  unfold captureHeld
  rw [h]
  dsimp only
  rw [if_pos (show s.cmd.queue.length < Config.queueLimit from hroom), hw]

theorem captureHeld_waiting (s : State) : (captureHeld s).cmd.waiting = s.cmd.waiting := by
  unfold captureHeld
  split
  · rfl
  · split
    · split <;> rfl
    · rfl

/-- Settles O34: the record is queued, the entry leaves, and the freed place is taken. -/
theorem completionFreesTheQueuePlace : Obligations.CompletionFreesTheQueuePlace := by
  intro s c rest status result hq hrest hlost hwait hfree
  dsimp only
  have hroom : room s.cmd = true := by
    rw [room, decide_eq_true (by exact hfree), decide_eq_true (by exact hwait)]
    rfl
  have hcmd : (ended status result c s).cmd = { s.cmd with
      waiting := s.cmd.waiting ++
        [⟨.completion status (leNat (slice c 2 2)) (byteAt c 0) (if status = .done then result else []), s.time.secs⟩]
      queue := rest, executing := .idle } := by
    rw [ended]
    dsimp only
    rw [offer_queued _ hlost hroom]
    dsimp only
    rw [hq, List.tail_cons]
  have hkeep : KeepsAllBut reportParts s (ended status result c s) := ((offer_keeps _ s).append (keeps_cmd _ _)).mono (by decide)
  have hpath : (ended status result c s).path = s.path := hkeep .path (by decide)
  refine ⟨?_, completeCommand_idle _ _ (.inr (by rw [hq]; exact List.cons_ne_nil _ _)), (completeCommand_keeps status result s).mono (by decide),
    fun hheld => ?_, fun tag others w hheld hw => ?_⟩
  all_goals rw [completeCommand_ended hq]
  · rw [captureHeld_waiting, hcmd]
  · rw [captureHeld_none (by rw [hcmd]; exact hheld), hcmd, hpath]
    exact ⟨rfl, rfl⟩
  · rw [captureHeld_oldest (by rw [hcmd]; exact hheld) (by rw [hcmd]; exact hrest) (by rw [hpath]; exact hw)]
    refine ⟨?_, ?_, ?_⟩
    · show (ended status result c s).cmd.queue ++ _ = _
      rw [hcmd]
    · rfl
    · rw [← hpath]
      rfl

/-! ### The responses to the ring's own writes (O35) -/

/-- An own write whose response is awaited, and the awaited ones without it. -/
theorem ownKind_awaited {s : State} {before after : List (Nat × OwnKind)} {tag : Nat} {k : OwnKind}
    (hi : s.own.issued = before ++ (tag, k) :: after) (hne : ∀ e ∈ before ++ after, e.1 ≠ tag) : ownKind s tag = some k ∧
      dropOwn tag s = { s with own := { s.own with issued := before ++ after } } := by
  have hkeep {l : List (Nat × OwnKind)} (h : ∀ e ∈ l, e.1 ≠ tag) : (l.filter fun e => e.1 != tag) = l :=
    List.filter_eq_self.2 fun e he => by simpa using h e he
  have hb : ∀ e ∈ before, e.1 ≠ tag := fun e he => hne e (List.mem_append_left _ he)
  have ha : ∀ e ∈ after, e.1 ≠ tag := fun e he => hne e (List.mem_append_right _ he)
  constructor
  · rw [ownKind, hi, List.find?_append, List.find?_eq_none.2 fun e he => by simpa using hb e he, List.find?_cons_of_pos (by simp)]
    rfl
  · rw [dropOwn, hi, List.filter_append, hkeep hb, List.filter_cons_of_neg (by simp), hkeep ha]

theorem irq_iff (s : State) : s.irq = true ↔ s.cmd.head ≠ s.cmd.tail := bne_iff_ne

/-- The report record that is written next (R163). -/
theorem writeNext_eq (s : State) : writeNext s = { s with own := { s.own with
    requests := s.own.requests ++
      (match s.cmd.waiting with | [] => [] | n :: _ => [⟨.report, s.control + 0x1000 + s.cmd.head * 32, n.bytes⟩]) } } := by
  unfold writeNext
  cases s.cmd.waiting with
  | nil =>
    dsimp only
    rw [List.append_nil]
  | cons w rest => rfl

/-- Settles O35: the response takes the record out of the waiting list, and the next one is requested at the slot of H. -/
theorem reportRingAdvancesOnOkay : Obligations.ReportRingAdvancesOnOkay := by
  constructor
  · intro s before after tag resp w rest hi hne hwait
    obtain ⟨hkind, hdrop⟩ := ownKind_awaited hi hne
    have hpop : popWaiting (dropOwn tag s) = { s with
        own := { s.own with issued := before ++ after }, cmd := { s.cmd with waiting := rest } } := by
      rw [hdrop, popWaiting, hwait]
      rfl
    have hexec : exec (.reportRecordResponse tag resp) s = .next (reportResponse tag resp s) := rfl
    by_cases hr : resp = .okay
    · have heq : reportResponse tag resp s = writeNext (requestHead (advanceHead (popWaiting (dropOwn tag s)))) := by
        rw [reportResponse, if_pos hkind]
        dsimp only
        rw [if_pos hr]
      refine ⟨_, hexec, (reportResponse_keeps tag resp s).mono (by decide), ?_⟩
      rw [heq, hpop, writeNext_eq]
      refine ⟨rfl, rfl, irq_iff _, fun _ => ⟨rfl, List.append_assoc ..⟩, fun h => absurd hr h⟩
    · have heq : reportResponse tag resp s = writeNext (countReportFault (popWaiting (dropOwn tag s))) := by
        rw [reportResponse, if_pos hkind]
        dsimp only
        rw [if_neg hr]
      refine ⟨_, hexec, (reportResponse_keeps tag resp s).mono (by decide), ?_⟩
      rw [heq, hpop, writeNext_eq]
      exact ⟨rfl, rfl, irq_iff _, fun h => absurd h hr, fun _ => ⟨rfl, rfl⟩⟩
  · intro s before after tag resp hi hne
    obtain ⟨hkind, hdrop⟩ := ownKind_awaited hi hne
    have heq : headResponse tag resp s = if resp = .okay then dropOwn tag s else countReportFault (dropOwn tag s) := by
      rw [headResponse, if_pos hkind]
    refine ⟨headResponse tag resp s, rfl, ?_, (headResponse_keeps tag resp s).mono (by decide), fun h => ?_, fun h => ?_⟩
    all_goals rw [heq, hdrop]
    · split <;> rfl
    · rw [if_pos h]
    · rw [if_neg h]
      rfl

end Sys2Proof.Machine

/-! SUPPORT. The layout of report records and hold references. -/

namespace Sys2Proof.Machine

open Sys2Proof

/-! ### Fields of concatenated bytes -/

@[simp] theorem length_leBytes (n v : Nat) : (leBytes n v).length = n := by
  induction n generalizing v with
  | zero => rfl
  | succ n ih => exact congrArg Nat.succ (ih _)

@[simp] theorem length_leInt (n : Nat) (v : Int) : (leInt n v).length = n := length_leBytes ..

@[simp] theorem length_macBytes (m : Mac) : (macBytes m).length = 6 := by rw [macBytes, List.length_reverse, length_leBytes]

@[simp] theorem leNat_leBytes (n v : Nat) : leNat (leBytes n v) = v % 256 ^ n := by
  induction n generalizing v with
  | zero => exact (Nat.mod_one v).symm
  | succ n ih =>
    have hpow : 256 ^ (n + 1) = 256 * 256 ^ n := Nat.pow_succ'
    rw [leBytes, leNat, ih, BitVec.toNat_ofNat, hpow, Nat.mod_mul]

@[simp] theorem leNat_leInt (n : Nat) (v : Int) : (leNat (leInt n v) : Int) = v % ((256 ^ n : Nat) : Int) := by
  have hpos : (0 : Int) < ((256 ^ n : Nat) : Int) := by exact_mod_cast Nat.pow_pos (by decide)
  rw [leInt, leNat_leBytes, Int.natCast_mod, Int.toNat_of_nonneg (Int.emod_nonneg _ (Int.ne_of_gt hpos)), Int.emod_emod]

@[simp] theorem beNat_macBytes (m : Mac) : beNat (macBytes m) = m.toNat := by
  rw [beNat, macBytes, List.reverse_reverse, leNat_leBytes]
  exact Nat.mod_eq_of_lt m.isLt

@[simp] theorem slice_append_skip {a b : List Byte} {off n : Nat} (h : a.length ≤ off) : slice (a ++ b) off n = slice b (off - a.length) n := by
  rw [slice, List.drop_append, List.drop_eq_nil_of_le h, List.nil_append, slice]

@[simp] theorem slice_append_here {a b : List Byte} {n : Nat} (h : a.length = n) : slice (a ++ b) 0 n = a := by
  rw [slice, List.drop_zero, ← h, List.take_left]

@[simp] theorem slice_cons_skip {b : Byte} {bs : List Byte} {off n : Nat} (h : 1 ≤ off) : slice (b :: bs) off n = slice bs (off - 1) n :=
  slice_append_skip (a := [b]) h

@[simp] theorem slice_leBytes (n v : Nat) : slice (leBytes n v) 0 n = leBytes n v := by
  rw [slice, List.drop_zero, List.take_of_length_le (Nat.le_of_eq (length_leBytes n v))]

@[simp] theorem leNat_byte (b : Byte) : leNat [b] = b.toNat % 256 := (Nat.mod_eq_of_lt b.isLt).symm

@[simp] theorem slice_cons_here (b : Byte) (bs : List Byte) : slice (b :: bs) 0 1 = [b] := rfl

@[simp] theorem byteAt_append_skip {a b : List Byte} {i : Nat} (h : a.length ≤ i) : byteAt (a ++ b) i = byteAt b (i - a.length) := by
  rw [byteAt, List.getD_append_right _ _ _ _ h, byteAt]

theorem byteAt_replicate (n i : Nat) : byteAt (List.replicate n 0) i = 0 := by
  rw [byteAt]
  by_cases h : i < n
  · rw [List.getD_replicate _ h]
  · exact List.getD_eq_default _ _ (by rw [List.length_replicate]; omega)

theorem padTo_short {bs : List Byte} {n : Nat} (h : bs.length ≤ n) : padTo n bs = bs ++ List.replicate (n - bs.length) 0 := by
  rw [padTo, List.take_append, List.take_of_length_le h, List.take_replicate]
  congr
  omega

theorem byteAt_padTo {bs : List Byte} {n i : Nat} (h : i < n) : byteAt (padTo n bs) i = byteAt bs i := by
  rw [byteAt, byteAt, padTo, List.getD_eq_getElem?_getD, List.getD_eq_getElem?_getD, List.getElem?_take_of_lt h]
  by_cases hi : i < bs.length
  · rw [List.getElem?_append_left hi]
  · rw [List.getElem?_append_right (Nat.le_of_not_lt hi), List.getElem?_eq_none (Nat.le_of_not_lt hi), List.getElem?_replicate]
    split <;> rfl

theorem length_padTo (n : Nat) (bs : List Byte) : (padTo n bs).length = n := by
  rw [padTo, List.length_take, List.length_append, List.length_replicate]
  omega

/-! ### The record of a report (Tables 10.6 and 10.11) -/

section Record

variable {r : Report} {uptime off n : Nat}

theorem Waiting.bytes_eq : Waiting.bytes ⟨r, uptime⟩ =
    leBytes 1 r.header.1 ++ (leBytes 1 r.header.2.1 ++ (leBytes 2 r.header.2.2 ++ (leBytes 4 uptime ++ padTo 24 r.payload))) := by
  simp only [Waiting.bytes, u8, u16, u32, List.append_assoc]

/-- A field of the payload. -/
theorem record_slice (h : r.payload.length ≤ 24) (ho : 8 ≤ off) :
    slice (Waiting.bytes ⟨r, uptime⟩) off n = slice (r.payload ++ List.replicate (24 - r.payload.length) 0) (off - 8) n := by
  rw [Waiting.bytes_eq, padTo_short h, slice_append_skip, slice_append_skip, slice_append_skip, slice_append_skip]
  · simp only [length_leBytes, Nat.sub_sub]
  all_goals
    simp only [length_leBytes]
    omega

/-- A byte of the payload, whatever its length. -/
theorem record_byteAt_pad (ho : 8 ≤ off) : byteAt (Waiting.bytes ⟨r, uptime⟩) off = byteAt (padTo 24 r.payload) (off - 8) := by
  rw [Waiting.bytes_eq, byteAt_append_skip, byteAt_append_skip, byteAt_append_skip, byteAt_append_skip]
  · simp only [length_leBytes, Nat.sub_sub]
  all_goals
    simp only [length_leBytes]
    omega

@[simp] theorem record_holds (h : r.payload.length ≤ 24) (ho : 8 ≤ off) (v : Nat) : Holds (Waiting.bytes ⟨r, uptime⟩) off n v ↔
    leNat (slice (r.payload ++ List.replicate (24 - r.payload.length) 0) (off - 8) n) = v % 256 ^ n := by
  rw [Holds, record_slice h ho]

@[simp] theorem record_holdsInt (h : r.payload.length ≤ 24) (ho : 8 ≤ off) (v : Int) : HoldsInt (Waiting.bytes ⟨r, uptime⟩) off n v ↔
    (leNat (slice (r.payload ++ List.replicate (24 - r.payload.length) 0) (off - 8) n) : Int) = v % ((256 ^ n : Nat) : Int) := by
  rw [HoldsInt, record_slice h ho]

@[simp] theorem record_holdsMac (h : r.payload.length ≤ 24) (ho : 8 ≤ off) (m : Mac) : HoldsMac (Waiting.bytes ⟨r, uptime⟩) off m ↔
    beNat (slice (r.payload ++ List.replicate (24 - r.payload.length) 0) (off - 8) 6) = m.toNat := by
  rw [HoldsMac, record_slice h ho]

@[simp] theorem record_byteAt (h : r.payload.length ≤ 24) (ho : 8 ≤ off) : byteAt (Waiting.bytes ⟨r, uptime⟩) off =
    byteAt (r.payload ++ List.replicate (24 - r.payload.length) 0) (off - 8) := by
  rw [record_byteAt_pad ho, padTo_short h]

/-- Kind code, sub-code, bytes 2-3 and the uptime (Table 10.6). -/
theorem record_head {kind sub two : Nat} (hr : r.header = (kind, sub, two)) : Holds (Waiting.bytes ⟨r, uptime⟩) 0 1 kind ∧
    Holds (Waiting.bytes ⟨r, uptime⟩) 1 1 sub ∧ Holds (Waiting.bytes ⟨r, uptime⟩) 2 2 two ∧
    Holds (Waiting.bytes ⟨r, uptime⟩) 4 4 uptime := by
  rw [Waiting.bytes_eq, hr]
  simp [Holds]

/-- The head of a record, with zeros behind its payload. -/
theorem record_headed {kind sub two fin : Nat} (hr : r.header = (kind, sub, two)) (hf : r.payload.length + 8 = fin) (h : fin ≤ 32) :
    Headed (Waiting.bytes ⟨r, uptime⟩) kind sub two fin := by
  obtain ⟨hkind, hsub, htwo, -⟩ := record_head (uptime := uptime) hr
  refine ⟨hkind, hsub, htwo, fun i hi hi' => ?_⟩
  rw [record_byteAt (by omega) (by omega), byteAt_append_skip (by omega), byteAt_replicate]

end Record

@[simp] theorem u8_eq (n : Nat) : u8 n = leBytes 1 n := rfl
@[simp] theorem u16_eq (n : Nat) : u16 n = leBytes 2 n := rfl
@[simp] theorem u32_eq (n : Nat) : u32 n = leBytes 4 n := rfl
@[simp] theorem byteAt_cons (b : Byte) (bs : List Byte) : byteAt (b :: bs) 0 = b := rfl

/-! ### The codes of a record -/

@[simp] theorem Bank.code_eq (k : Bank) : k.code = bankCode k := by cases k <;> rfl
@[simp] theorem StagingState.code_eq (g : StagingState) : g.code = stagingCode g := by cases g <;> rfl
@[simp] theorem BootCause.code_eq (c : BootCause) : c.code = [BootCause.invalid, .normal, .trial].idxOf c := by cases c <;> rfl
@[simp] theorem VerifyResult.code_eq (v : VerifyResult) :
    v.code = [VerifyResult.verified, .mismatch, .readError, .interrupted].idxOf v := by cases v <;> rfl
@[simp] theorem HandoffOutcome.code_eq (o : HandoffOutcome) :
    o.code = [HandoffOutcome.departed, .stayed, .timedOut, .cleared].idxOf o := by cases o <;> rfl
@[simp] theorem LineSub.code_eq (k : LineSub) : k.code = [LineSub.asserted, .released, .syncForward, .syncBack].idxOf k := by cases k <;> rfl
@[simp] theorem GateCause.code_eq (c : GateCause) :
    c.code = [GateCause.boundary, .timeSet, .evaluate, .grant, .gateSet, .line, .stationSet].idxOf c := by cases c <;> rfl
@[simp] theorem RefusedRegion.code_eq (r : RefusedRegion) :
    r.code = [RefusedRegion.bootAlias, .bankInForce, .recordSector].idxOf r := by cases r <;> rfl
@[simp] theorem Status.code_eq (c : Status) : c.code = [Status.done, .accepted, .refusedRange, .refusedState, .refusedPending, .refusedFull,
    .refusedDuplicate, .refusedOverlap, .refusedUnknown].idxOf c := by cases c <;> rfl
@[simp] theorem RecordFault.code_eq (f : RecordFault) : f.code = faultCode (some f) := by cases f <;> rfl
theorem flag_eq (b : Bool) : b.toNat = if b = true then 1 else 0 := by cases b <;> rfl
@[simp] theorem Reasons.code_eq (r : Reasons) : r.code = (if r.window then 1 else 0) + (if r.allowance then 2 else 0) + (if r.line then 4 else 0) +
    (if r.host then 8 else 0) := by
  obtain ⟨w, a, l, h⟩ := r
  cases w <;> cases a <;> cases l <;> cases h <;> rfl

/-- Every report whose payload has a length of its own. -/
theorem laidOut (r : Report) (uptime : Nat) : LaidOut (Waiting.bytes ⟨r, uptime⟩) r := by
  cases r with
  | completion status tag kind result =>
    obtain ⟨hkind, hsub, htwo, -⟩ := record_head (r := .completion status tag kind result) (uptime := uptime) rfl
    refine ⟨hkind, status.code_eq ▸ hsub, htwo, (record_byteAt_pad (by decide)).trans (byteAt_padTo (by decide)), fun i hi => ?_⟩
    rw [record_byteAt_pad (by omega), byteAt_padTo (by omega), show 9 + i - 8 = i + 1 by omega]
    rfl
  | bootStatus cause bank trial reverted fault vA vB =>
    refine ⟨record_headed (by simp [Report.header]) rfl (by decide), ?_⟩
    cases fault with
    | none => simp [Report.payload, flag_eq, show faultCode none = 0 from rfl]
    | some f => simp [Report.payload, flag_eq]
  | recordRefused cause selected version state staging =>
    refine ⟨record_headed ?_ rfl (by decide), by simp [Report.payload]⟩
    cases cause with
    | fault f => simp [Report.header, RecordCause.code]
    | _ => rfl
  | candidateExpired station mac est =>
    refine ⟨record_headed rfl rfl (by decide), ?_⟩
    cases est <;> simp [Report.payload]
  | flowDemoted entry station key allowance overCount count =>
    refine ⟨record_headed rfl rfl (by decide), ?_⟩
    cases station <;> simp [Report.payload, FlowKey.bytes]
  | _ => exact ⟨record_headed (by simp [Report.header, flag_eq]) rfl (by decide), by simp [Report.payload, flag_eq]⟩

/-- Settles O36: the head by `record_head`, the payloads by `laidOut`. -/
theorem recordsHaveTheirLayout : Obligations.RecordsHaveTheirLayout := by
  refine ⟨fun w => ⟨?_, (record_head rfl).2.2.2, laidOut w.report w.uptime⟩, fun r d => ?_⟩
  · rw [show w.bytes = _ from Waiting.bytes_eq (r := w.report) (uptime := w.uptime)]
    simp [length_padTo]
  · have hcode : d.code = [Disposition.forward, .resend, .discard].idxOf d := by cases d <;> rfl
    simp [refBytes, Holds, hcode]

end Sys2Proof.Machine

/-! SUPPORT. The two sides of the downstream arbiter, and the responses. -/

namespace Sys2Proof.Machine

open Sys2Proof

/-! ### The element that a key names -/

section Keyed

variable {α : Type} (key : α → Nat) {before after : List α} {x : α}

theorem map_keyed (f : α → α) (hne : ∀ y ∈ before ++ after, key y ≠ key x) :
    ((before ++ x :: after).map fun y => if key y = key x then f y else y) = before ++ f x :: after := by
  have hsame {l : List α} (h : ∀ y ∈ l, key y ≠ key x) : (l.map fun y => if key y = key x then f y else y) = l :=
    (List.map_congr_left fun y hy => if_neg (h y hy)).trans (List.map_id _)
  rw [List.map_append, List.map_cons, if_pos rfl, hsame fun y hy => hne y (List.mem_append_left _ hy),
    hsame fun y hy => hne y (List.mem_append_right _ hy)]

theorem filter_keyed (hne : ∀ y ∈ before ++ after, key y ≠ key x) :
    ((before ++ x :: after).filter fun y => key y != key x) = before ++ after := by
  have hsame {l : List α} (h : ∀ y ∈ l, key y ≠ key x) : (l.filter fun y => key y != key x) = l :=
    List.filter_eq_self.2 fun y hy => bne_iff_ne.2 (h y hy)
  rw [List.filter_append, List.filter_cons_of_neg (by simp), hsame fun y hy => hne y (List.mem_append_left _ hy),
    hsame fun y hy => hne y (List.mem_append_right _ hy)]

theorem takeWhile_keyed (hne : ∀ y ∈ before, key y ≠ key x) : ((before ++ x :: after).takeWhile fun y => key y != key x) = before := by
  rw [List.takeWhile_append_of_pos fun y hy => bne_iff_ne.2 (hne y hy), List.takeWhile_cons_of_neg (by simp), List.append_nil]

end Keyed

/-! ### The write side (O30) -/

theorem leaves_eq_false {p : PathUnit} {tag : Nat} (h : ∀ x, findWrite p tag = some x → oldestInside p.writes tag x.txn.id = false) :
    leaves p tag = false := by
  rw [leaves]
  cases hf : findWrite p tag with
  | none => rfl
  | some x => exact h x hf

theorem leaves_oldest {p : PathUnit} {older newer : List WriteTx} {w : WriteTx} (hw : p.writes = older ++ w :: newer)
    (hne : ∀ x ∈ older, x.tag ≠ w.tag) (hold : ∀ x ∈ older, x.txn.id = w.txn.id → x.inside = false) : leaves p w.tag = true := by
  simp only [leaves, findWrite_append hw rfl hne]
  rw [oldestInside, hw, takeWhile_keyed WriteTx.tag hne, List.all_eq_true]
  intro x hx
  by_cases hid : x.txn.id = w.txn.id
  · rw [hold x hx hid]
    rfl
  · rw [beq_eq_false_iff_ne.2 hid, Bool.and_false]
    rfl

/-- Settles O30: the oldest request, or the first ready write that may leave. -/
theorem writeSideGrantsOwnWritesFirst : Obligations.WriteSideGrantsOwnWritesFirst := by
  refine ⟨fun s o rest ho => ?_, fun s before after older newer w ho hready hw hne hold hbefore => ?_, fun s ho hready => ?_⟩
  · have heq : writeGrant s = grantOwn o rest s := by rw [writeGrant, ho]
    refine ⟨writeGrant s, rfl, ?_, ?_, ?_, (writeGrant_keeps s).mono (by decide)⟩ <;> rw [heq] <;> rfl
  · have hbefore' : ∀ x ∈ older, x.tag ≠ w.tag := fun x hx => hne x (List.mem_append_left _ hx)
    have hfind : findWrite s.path w.tag = some w := findWrite_append hw rfl hbefore'
    have hfirst : (s.path.ready.find? fun t => leaves s.path t) = some w.tag := by
      rw [hready, List.find?_append, List.find?_eq_none.2 fun tag ht => by rw [leaves_eq_false (hbefore tag ht)]; decide,
        Option.none_or, List.find?_cons_of_pos (leaves_oldest hw hbefore' hold)]
    have heq : writeGrant s = grantWrite w s := by
      simp only [writeGrant, ho, hfirst, Option.bind_some, hfind]
    refine ⟨grantWrite w s, congrArg _ heq, rfl, ?_, ?_⟩
    · rw [← map_keyed WriteTx.tag (fun w => { w with stage := .issued, listed := false, reserved := false }) hne, ← hw]
      rfl
    · intro b hb
      cases b <;> first | rfl | exact absurd (by decide) hb
  · show Host.Outcome.next (writeGrant s) = _
    rw [writeGrant, ho, hready]
    rfl

/-! ### The read side (O31) -/

theorem eligibleSweep_iff {s : State} {v : Sweep} : eligibleSweep s = some v ↔
    s.img.staging.sweep = some v ∧ v.step = .waiting ∧ (v.yields = false ∨ s.adm.activity = false) := by
  have hnot {a b : Bool} : ¬(a = true ∧ b = true) ↔ a = false ∨ b = false := by cases a <;> cases b <;> decide
  unfold eligibleSweep
  cases s.img.staging.sweep with
  | none => exact ⟨nofun, fun h => nomatch h.1⟩
  | some w =>
    dsimp only
    constructor
    · intro h
      split at h
      · next hw =>
        cases h
        exact ⟨rfl, hw.1, hnot.1 hw.2⟩
      · cases h
    · rintro ⟨h, hstep, hyield⟩
      cases h
      rw [if_pos ⟨hstep, hnot.2 hyield⟩]

theorem nextRead_first {p : PathUnit} {before after : List ReadTx} {r : ReadTx} (h : p.reads = before ++ r :: after)
    (hb : ∀ x ∈ before, x.issued = true) (hr : r.issued = false) : nextRead p = some r := by
  rw [nextRead, h, List.find?_append, List.find?_eq_none.2 fun x hx => by rw [hb x hx]; decide, Option.none_or,
    List.find?_cons_of_pos (by rw [hr]; rfl)]

theorem readGrant_sweep {s : State} {v : Sweep} (hb : s.boot ≠ .requesting) (hv : eligibleSweep s = some v)
    (h : v.share ≤ s.path.sweepWait ∨ ∀ r ∈ s.path.reads, r.issued = true) : readGrant s = grantSweep v s := by
  rw [readGrant, if_neg hb, hv]
  cases hr : nextRead s.path with
  | none => rfl
  | some r =>
    have hshare : v.share ≤ s.path.sweepWait := h.resolve_right fun hall => by
      have hissued := List.find?_some hr
      rw [hall r (List.mem_of_find?_eq_some hr)] at hissued
      cases hissued
    exact if_pos hshare

theorem readGrant_read {s : State} {r : ReadTx} (hb : s.boot ≠ .requesting) (hr : nextRead s.path = some r)
    (hv : ∀ v, eligibleSweep s = some v → s.path.sweepWait < v.share) : readGrant s = grantRead r (eligibleSweep s).isSome s := by
  rw [readGrant, if_neg hb, hr]
  cases hsweep : eligibleSweep s with
  | none => rfl
  | some v => exact if_neg (Nat.not_le.2 (hv v hsweep))

/-- Settles O31: the boot read, the sweep's read, or the read that arrived first. -/
theorem readSideSharesWithTheSweep : Obligations.ReadSideSharesWithTheSweep := by
  refine ⟨fun s hb => ?_, fun s v bank hb hsweep hbank hstep hyield h => ?_,
    fun s before after r hb hreads hbefore hr hne eligible hiff hwait => ?_⟩
  · refine ⟨grantBoot s, congrArg _ (if_pos hb), rfl, rfl, rfl, ?_⟩
    intro b hb
    cases b <;> first | rfl | exact absurd (by decide) hb
  · refine ⟨grantSweep v s, congrArg _ (readGrant_sweep hb (eligibleSweep_iff.2 ⟨hsweep, hstep, hyield⟩) h), ?_, rfl, rfl, ?_⟩
    · rw [grantSweep, hbank]
      rfl
    · intro b hb
      cases b <;> first | rfl | exact absurd (by decide) hb
  · have heligible : (eligibleSweep s).isSome = eligible := by
      rw [Bool.eq_iff_iff, hiff, Option.isSome_iff_exists]
      exact exists_congr fun v => eligibleSweep_iff
    have hshare : ∀ v, eligibleSweep s = some v → s.path.sweepWait < v.share := fun v hv =>
      hwait v (eligibleSweep_iff.1 hv).1 (heligible ▸ hv ▸ rfl)
    refine ⟨grantRead r eligible s, congrArg _ ((readGrant_read hb (nextRead_first hreads hbefore hr) hshare).trans (by rw [heligible])),
      rfl, ?_, ?_⟩
    · rw [← map_keyed ReadTx.tag (fun q => { q with issued := true }) hne, ← hreads]
      rfl
    · intro b hb
      cases b <;> first | rfl | exact absurd (by decide) hb

/-! ### Responses (O32) -/

section Flush

variable {id : AxiId} {w : WriteTx} {ws : List WriteTx}

theorem flushWrites_other (h : w.txn.id ≠ id) : flushWrites id (w :: ws) = (w :: (flushWrites id ws).1, (flushWrites id ws).2) := by
  rw [flushWrites, if_neg h]

theorem flushWrites_answered {r : Resp} (h : w.txn.id = id) (hr : w.stage = .answered r) :
    flushWrites id (w :: ws) = ((flushWrites id ws).1, .upWriteResp w.tag id r :: (flushWrites id ws).2) := by
  rw [flushWrites, if_pos h]
  simp only [hr]

/-- An unanswered write of the ID keeps back all that are newer. -/
theorem flushWrites_waits (h : w.txn.id = id) (hr : ∀ r, w.stage ≠ .answered r) : flushWrites id (w :: ws) = (w :: ws, []) := by
  rw [flushWrites, if_pos h]
  cases hs : w.stage with
  | answered r => exact absurd hs (hr r)
  | _ => rfl

theorem flushWrites_older {older : List WriteTx} (h : ∀ x ∈ older, x.txn.id ≠ id) :
    flushWrites id (older ++ ws) = (older ++ (flushWrites id ws).1, (flushWrites id ws).2) := by
  induction older with
  | nil => rfl
  | cons x xs ih =>
    rw [List.cons_append, flushWrites_other (h x (List.mem_cons_self ..)), ih fun y hy => h y (List.mem_cons_of_mem _ hy)]
    rfl

/-- The kept responses return as far as every write of the ID is answered. -/
theorem flushWrites_returns {newer first last : List WriteTx} (h : ReturnsThrough id newer first last) :
    flushWrites id newer = ((first.filter fun x => x.txn.id != id) ++ last, first.filterMap (keptResponse id)) := by
  obtain ⟨rfl, hfirst, hlast⟩ := h
  induction first with
  | nil =>
    obtain rfl | ⟨x, rest, rfl, hid, hr⟩ := hlast
    · rfl
    · exact flushWrites_waits hid hr
  | cons x xs ih =>
    have ih := ih fun y hy => hfirst y (List.mem_cons_of_mem _ hy)
    rw [List.cons_append]
    by_cases hid : x.txn.id = id
    · obtain ⟨r, hr⟩ := hfirst x (List.mem_cons_self ..) hid
      have hkept : keptResponse id x = some (.upWriteResp x.tag id r) := by
        rw [keptResponse, if_pos hid]
        simp only [hr]
      rw [flushWrites_answered hid hr, ih, List.filter_cons_of_neg (by simp [hid]), List.filterMap_cons_some hkept]
    · have hkept : keptResponse id x = none := by rw [keptResponse, if_neg hid]
      rw [flushWrites_other hid, ih, List.filter_cons_of_pos (by simp [hid]), List.filterMap_cons_none hkept]
      rfl

end Flush

/-- The response to an issued write is kept with it, and what may return does. -/
theorem writeResponse_eq {s : State} {older newer : List WriteTx} {w : WriteTx} (hw : s.path.writes = older ++ w :: newer)
    (hs : w.stage = .issued) (hne : ∀ x ∈ older ++ newer, x.tag ≠ w.tag) (resp : Resp) : writeResponse w.tag resp s =
      flush w.txn.id { s with path := { s.path with writes := older ++ { w with stage := .answered resp } :: newer } } := by
  have hfind : findWrite s.path w.tag = some w := findWrite_append hw rfl fun x hx => hne x (List.mem_append_left _ hx)
  rw [← map_keyed WriteTx.tag (fun w => { w with stage := .answered resp }) hne, ← hw]
  simp only [writeResponse, hfind, if_pos hs]
  rfl

theorem oldestOfId_split {older newer : List WriteTx} {w : WriteTx} (hne : ∀ x ∈ older, x.tag ≠ w.tag) :
    oldestOfId (older ++ w :: newer) w.tag w.txn.id = true ↔ ∀ x ∈ older, x.txn.id ≠ w.txn.id := by
  rw [oldestOfId, takeWhile_keyed WriteTx.tag hne, List.all_eq_true]
  exact forall₂_congr fun x _ => bne_iff_ne

/-- Settles O32: the responses that return are those of `flushWrites`. -/
theorem responsesReturnInArrivalOrder : Obligations.ResponsesReturnInArrivalOrder := by
  refine ⟨fun s before after r resps data hreads hr hne => ?_, fun s older newer w resp hw hs hne => ⟨fun hold => ?_, ?_⟩,
    fun s older newer w hw hs hne => ?_⟩
  · have hfind : (s.path.reads.find? fun x => x.tag == r.tag && x.issued) = some r := by
      rw [hreads, List.find?_append, List.find?_eq_none.2 fun x hx => by simp [hne x (List.mem_append_left _ hx)], Option.none_or,
        List.find?_cons_of_pos (by simp [hr])]
    have heq : readResponse r.tag resps data s = emit (.upReadResp r.tag r.txn.id resps data)
        { s with path := { s.path with reads := before ++ after } } := by
      simp only [readResponse, hfind]
      rw [hreads, filter_keyed ReadTx.tag hne]
    refine ⟨_, congrArg Host.Outcome.next heq, rfl, rfl, ?_⟩
    intro b hb
    cases b <;> first | rfl | exact absurd (by decide) hb
  · refine ⟨_, congrArg Host.Outcome.next (writeResponse_eq hw hs hne resp), fun first last hret => ?_⟩
    have hflush : flushWrites w.txn.id (older ++ { w with stage := .answered resp } :: newer) =
        (older ++ ((first.filter fun x => x.txn.id != w.txn.id) ++ last),
          .upWriteResp w.tag w.txn.id resp :: first.filterMap (keptResponse w.txn.id)) := by
      rw [flushWrites_older hold, flushWrites_answered (id := w.txn.id) (w := { w with stage := .answered resp }) rfl rfl, flushWrites_returns hret]
    refine ⟨?_, ?_, ?_⟩
    · rw [flush, hflush]
    · rw [flush, hflush, List.append_assoc]
    · intro b hb
      cases b <;> first | rfl | exact absurd (by decide) hb
  · rintro x first others rfl hfirst hid hr
    refine ⟨_, congrArg Host.Outcome.next (writeResponse_eq hw hs hne resp), ?_, ?_⟩
    all_goals
      have hflush : flushWrites w.txn.id (first ++ x :: others ++ { w with stage := .answered resp } :: newer) =
          (first ++ x :: others ++ { w with stage := .answered resp } :: newer, []) := by
        rw [List.append_assoc, flushWrites_older hfirst, List.cons_append, flushWrites_waits hid hr]
    · rw [flush, hflush]
    · rw [flush, hflush]
      dsimp only
      rw [List.append_nil]
      exact keeps_path _ s
  · have hfind : findWrite s.path w.tag = some w := findWrite_append hw rfl fun x hx => hne x (List.mem_append_left _ hx)
    have holdest := oldestOfId_split (newer := newer) fun x hx => hne x (List.mem_append_left _ hx)
    refine ⟨fun hold => ?_, fun ⟨x, hx, hid⟩ => ?_⟩
    · have heq : refusedResponse w.tag s = flush w.txn.id (emit (.upWriteResp w.tag w.txn.id .slverr)
          { s with path := { s.path with writes := older ++ newer } }) := by
        simp only [refusedResponse, hfind]
        rw [if_pos ⟨hs, by rw [hw]; exact holdest.2 hold⟩, hw, filter_keyed WriteTx.tag hne]
      refine ⟨_, congrArg Host.Outcome.next heq, fun first last hret => ?_⟩
      have hflush : flushWrites w.txn.id (older ++ newer) = (older ++ ((first.filter fun x => x.txn.id != w.txn.id) ++ last),
          first.filterMap (keptResponse w.txn.id)) := by
        rw [flushWrites_older hold, flushWrites_returns hret]
      refine ⟨?_, ?_, ?_⟩
      · show s.ports ++ _ ++ (flushWrites w.txn.id (older ++ newer)).2 = _
        rw [hflush, List.append_assoc]
        rfl
      · show { s.path with writes := (flushWrites w.txn.id (older ++ newer)).1 } = _
        rw [hflush, List.append_assoc]
      · intro b hb
        cases b <;> first | rfl | exact absurd (by decide) hb
    · refine congrArg Host.Outcome.next (a₁ := refusedResponse w.tag s) ?_
      simp only [refusedResponse, hfind]
      rw [if_neg]
      exact fun h => holdest.1 (hw ▸ h.2) x hx hid

end Sys2Proof.Machine

/-! SUPPORT. Samples and the estimate. -/

namespace Sys2Proof.Machine

open Sys2Proof

/-! ### The sample that is taken -/

theorem pickSample_split {before rest : List Sample} {x : Sample} (hb : ∀ y ∈ before, y.station ≠ x.station) :
    pickSample x.station.val (before ++ x :: rest) = some (x, before ++ rest) := by
  induction before with
  | nil => exact if_pos rfl
  | cons y ys ih =>
    have hy : y.station.val ≠ x.station.val := fun h => hb y (List.mem_cons_self ..) (Fin.ext h)
    rw [List.cons_append, pickSample, if_neg hy, ih fun z hz => hb z (List.mem_cons_of_mem _ hz)]
    rfl

/-! ### The estimate (R116) -/

theorem invalidSample_iff (raw : Byte) : invalidSample raw = true ↔ raw.toInt = 0 ∨ raw.toInt = 127 ∨ raw.toInt = -128 := by
  simp only [invalidSample, Bool.or_eq_true, beq_iff_eq, or_assoc]

theorem tdiv_eq_zero_iff (d : Int) (n : Nat) (hn : 0 < n) : d.tdiv (n : Int) = 0 ↔ d.natAbs < n := by
  rw [← Int.natAbs_eq_zero, Int.natAbs_tdiv, Int.natAbs_natCast]
  show d.natAbs / n = 0 ↔ _
  rw [Nat.div_eq_zero_iff]
  omega

theorem estimateStep_small {d : Int} {k : Nat} (h : d ≠ 0) (hd : d.natAbs < 2 ^ k) : estimateStep d k = if 0 < d then 1 else -1 := by
  rw [estimateStep, (tdiv_eq_zero_iff d (2 ^ k) (Nat.two_pow_pos k)).2 hd]
  exact if_pos ⟨rfl, h⟩

theorem estimateStep_large {d : Int} {k : Nat} (hd : 2 ^ k ≤ d.natAbs) : estimateStep d k = d.tdiv (2 ^ k : Nat) := by
  have hq : d.tdiv (2 ^ k : Nat) ≠ 0 := fun h => absurd ((tdiv_eq_zero_iff d (2 ^ k) (Nat.two_pow_pos k)).1 h) (Nat.not_lt.2 hd)
  exact if_neg fun h => hq h.1

theorem estimateStep_zero (k : Nat) : estimateStep 0 k = 0 := by
  rw [estimateStep, Int.zero_tdiv]
  exact if_neg fun h => h.2 rfl

/-! ### The crossing (R117) -/

section Cross

variable {prof : RoamProfile} {i : Fin 128} {st : Station} {x e e₀ : Int}

theorem crossReport_unset (h : st.est = none) : crossReport prof i st x e = none := by
  rw [crossReport, h, crossing]

theorem crossReport_none (h : st.est = some e₀) (hsame : e₀ < 16 * prof.tWeak ↔ e < 16 * prof.tWeak) :
    crossReport prof i st x e = none := by
  rw [crossReport, h, crossing]
  rw [if_pos (decide_eq_decide.2 hsame)]

theorem crossReport_cross (h : st.est = some e₀) (hcross : ¬(e₀ < 16 * prof.tWeak ↔ e < 16 * prof.tWeak)) :
    crossReport prof i st x e = if prof.cross.selects (decide (16 * prof.tWeak ≤ e)) then
      some (.signalCross (decide (16 * prof.tWeak ≤ e)) i st.mac e x (16 * prof.tWeak)) else none := by
  rw [crossReport, h, crossing]
  rw [if_neg fun hd => hcross (decide_eq_decide.1 hd)]

end Cross

theorem CrossReport.selects_falling (c : CrossReport) : c.selects false = true ↔ c = .falling ∨ c = .both := by cases c <;> decide
theorem CrossReport.selects_rising (c : CrossReport) : c.selects true = true ↔ c = .rising ∨ c = .both := by cases c <;> decide

/-! ### The event (O28) -/

/-- The oldest sample handed over for a station, taken out of the list. -/
theorem signalSample_picked {s : State} {x : Sample} {before rest : List Sample} (hs : s.sig.samples = before ++ x :: rest)
    (hb : ∀ y ∈ before, y.station ≠ x.station) (hv : s.time.visitDue = false) : signalSample x.station.val s =
      match s.sta.stations[x.station] with
      | none => { s with sig := { s.sig with samples := before ++ rest, samplesLost := satInc count32 s.sig.samplesLost } }
      | some st =>
        if st.mac ≠ x.mac then
          { s with sig := { s.sig with samples := before ++ rest, samplesLost := satInc count32 s.sig.samplesLost } }
        else if invalidSample x.raw then
          { s with sig := { s.sig with samples := before ++ rest, samplesInvalid := satInc count32 s.sig.samplesInvalid } }
        else takeSample x.station st x.raw { s with sig := { s.sig with samples := before ++ rest } } := by
  rw [signalSample, if_neg (show ¬visiting s = true by rw [visiting, hv]; decide), hs, pickSample_split hb] <;> rfl

/-- The three ways of the estimate from a set one. -/
theorem nextEstimate_set (e₀ c : Int) (k : Nat) :
    (16 * c = e₀ → nextEstimate (some e₀) c k = e₀) ∧
      (16 * c ≠ e₀ → (16 * c - e₀).natAbs < 2 ^ k → nextEstimate (some e₀) c k = if e₀ < 16 * c then e₀ + 1 else e₀ - 1) ∧
      (2 ^ k ≤ (16 * c - e₀).natAbs → nextEstimate (some e₀) c k = e₀ + (16 * c - e₀).tdiv (2 ^ k : Nat)) := by
  refine ⟨fun h => ?_, fun h hd => ?_, fun hd => ?_⟩
  · rw [nextEstimate, show 16 * c - e₀ = 0 by omega, estimateStep_zero, Int.add_zero]
  · rw [nextEstimate, estimateStep_small (by omega) hd]
    by_cases hlt : e₀ < 16 * c
    · rw [if_pos (by omega), if_pos hlt]
    · rw [if_neg (by omega), if_neg hlt]
      rfl
  · rw [nextEstimate, estimateStep_large hd]

/-- What a crossing reports, in the directions that the profile selects. -/
theorem crossReport_cases {prof : RoamProfile} {i : Fin 128} {st : Station} {c e e₀ : Int} (h : st.est = some e₀) :
    ((e₀ < 16 * prof.tWeak ↔ e < 16 * prof.tWeak) → (crossReport prof i st c e).toList = []) ∧
      (16 * prof.tWeak ≤ e₀ → e < 16 * prof.tWeak → (crossReport prof i st c e).toList =
        if prof.cross = .falling ∨ prof.cross = .both then [.signalCross false i st.mac e c (16 * prof.tWeak)] else []) ∧
      (e₀ < 16 * prof.tWeak → 16 * prof.tWeak ≤ e → (crossReport prof i st c e).toList =
        if prof.cross = .rising ∨ prof.cross = .both then [.signalCross true i st.mac e c (16 * prof.tWeak)] else []) := by
  refine ⟨fun hsame => by rw [crossReport_none h hsame]; rfl, fun h₀ he => ?_, fun h₀ he => ?_⟩
  · rw [crossReport_cross h (by omega), decide_eq_false (by omega)]
    by_cases hsel : prof.cross.selects false = true
    · rw [if_pos hsel, if_pos (prof.cross.selects_falling.1 hsel)]
      rfl
    · rw [if_neg hsel, if_neg (mt prof.cross.selects_falling.2 hsel)]
      rfl
  · rw [crossReport_cross h (by omega), decide_eq_true he]
    by_cases hsel : prof.cross.selects true = true
    · rw [if_pos hsel, if_pos (prof.cross.selects_rising.1 hsel)]
      rfl
    · rw [if_neg hsel, if_neg (mt prof.cross.selects_rising.2 hsel)]
      rfl

/-- A taken sample: one station written, and the reports of its crossing and of its transition offered. -/
theorem takeSample_parts {s : State} {i : Fin 128} {st : Station} {samples : List Sample} (raw : Byte) :
    let t := takeSample i st raw { s with sig := { s.sig with samples := samples } }
    let prof := s.sig.profiles[st.roam]
    let e := nextEstimate st.est (clampSample raw) prof.shift
    let r := roamStep prof s.time.secs ((s.time.secs + prof.candidateTimeout) % 4294967296) i
      { st with away := false, samples := min (st.samples + 1) 65535, est := some e } e
    t.sig = { s.sig with samples := samples, samplesTaken := min (s.sig.samplesTaken + 1) 4294967295 } ∧
      t.sta = { s.sta with stations := vput s.sta.stations i (some r.1) } ∧
      Reports [.sig, .sta] ((crossReport prof i st (clampSample raw) e).toList ++ r.2.toList) s t := by
  dsimp only
  refine ⟨offerAll_keeps _ _ .sig (by decide), offerAll_keeps _ _ .sta (by decide), Reports.intro _ ⟨rfl, rfl, rfl, rfl⟩ ?_⟩
  exact (keeps_sig _ s).append (keeps_sta _ _)

/-- Settles O28: a valid sample by `takeSample_parts`, its estimate by `nextEstimate_set` and its crossing by `crossReport_cases`. -/
theorem sampleMovesTheEstimate : Obligations.SampleMovesTheEstimate := by
  refine ⟨fun s x before rest hs hb hv => ⟨_, rfl, fun hlost => ?_, fun st hst hmac => ⟨fun hraw => ?_, fun h0 h127 h128 => ?_⟩⟩,
    fun s i hv => ?_⟩
  · rw [signalSample_picked hs hb hv]
    cases hst : s.sta.stations[x.station] with
    | none => exact ⟨rfl, keeps_sig _ s⟩
    | some st =>
      simp only [if_pos (hlost st hst)]
      exact ⟨rfl, keeps_sig _ s⟩
  · have hpick := signalSample_picked hs hb hv
    simp only [hst, if_neg (not_not.2 hmac), if_pos ((invalidSample_iff _).2 hraw)] at hpick
    rw [hpick]
    exact ⟨rfl, keeps_sig _ s⟩
  · have hvalid : ¬invalidSample x.raw = true := fun h => by
      obtain h | h | h := (invalidSample_iff _).1 h
      exacts [h0 h, h127 h, h128 h]
    have hpick := signalSample_picked hs hb hv
    simp only [hst, if_neg (not_not.2 hmac), if_neg hvalid] at hpick
    obtain ⟨hsig, hsta, hrep⟩ := takeSample_parts (s := s) (i := x.station) (st := st) (samples := before ++ rest) x.raw
    rw [hpick]
    refine ⟨_, _, hsig, ?_, ?_, ?_, ?_, hrep, fun h => ?_, fun e₀ h => ?_⟩
    · rw [hsta]
      exact vput_same ..
    · intro j hj
      rw [hsta]
      exact vput_ne _ _ _ _ hj
    · rw [hsta]
    · rw [hsta]
    · rw [crossReport_unset h, h]
      exact ⟨rfl, rfl⟩
    · rw [h]
      obtain ⟨hsame, hsmall, hlarge⟩ := nextEstimate_set e₀ (clampSample x.raw) (s.sig.profiles[st.roam]).shift
      exact ⟨hsame, hsmall, hlarge, crossReport_cases h⟩
  · refine congrArg Host.Outcome.next (a₁ := signalSample i s) ?_
    rw [signalSample, if_pos (show visiting s = true from hv)]

end Sys2Proof.Machine

/-! SUPPORT. The counts of a tick and of an uptime second. -/

namespace Sys2Proof.Machine

open Sys2Proof

/-! ### TICK, UPTIME_SECOND and FLOW_AGING (O40) -/

theorem tickBusy_iff (s : State) : tickBusy s = true ↔ s.time.secondDue = true ∨ s.time.agingDue = true ∨ s.sched.minuteDue = true ∨
    s.adm.boundaryDue = true ∨ s.sched.line.run = 32 ∨ s.time.visitDue = true := by
  simp only [tickBusy, visiting, Bool.or_eq_true, beq_iff_eq, or_assoc]

theorem overdue_iff {now : Nat} {st : Station} : st.overdue now = true ↔
    (st.state = .candidate ∨ st.state = .holdoff ∨ st.state = .handoff) ∧ st.deadline < now := by
  simp only [Station.overdue, Bool.and_eq_true, Bool.or_eq_true, beq_iff_eq, or_assoc, decide_eq_true_iff]

theorem anyOverdue_iff {now : Nat} {t : StationTable} : anyOverdue now t = true ↔
    ∃ (i : Fin 128) (st : Station), t.stations[i] = some st ∧
      (st.state = .candidate ∨ st.state = .holdoff ∨ st.state = .handoff) ∧ st.deadline < now := by
  rw [anyOverdue, Option.isSome_iff_ne_none, ne_eq, vfind_none, not_forall]
  refine exists_congr fun i => ?_
  rw [Bool.not_eq_false, Option.any_eq_true]
  exact exists_congr fun st => and_congr_right fun _ => overdue_iff

theorem tick_idle {s : State} {lineIn : Bool} (hp : s.pins.por = false) (hb : tickBusy s = false) : tick lineIn s =
    if s.pins.rst then { s with sched := tickClock s.sched }
    else { s with time := tickUptime s.time, sched := { tickClock s.sched with line := tickLine lineIn s.sched.line },
                  adm := tickPacing s.adm } := by
  rw [tick, hp, hb]
  rfl

/-- The week prescaler and the second, whatever the line filter does. -/
theorem tickClock_cases (x : Schedule) (l : Line) :
    (x.clock.presc < 1023 → { tickClock x with line := l } = { x with clock := { x.clock with presc := x.clock.presc + 1 }, line := l }) ∧
      (1023 ≤ x.clock.presc → x.clock.second < 59 →
        { tickClock x with line := l } = { x with clock := { x.clock with presc := 0, second := x.clock.second + 1 }, line := l }) ∧
      (1023 ≤ x.clock.presc → 59 ≤ x.clock.second →
        { tickClock x with line := l } = { x with clock := { x.clock with presc := 0 }, minuteDue := true, line := l }) := by
  refine ⟨fun h => by rw [tickClock, if_pos h], fun h h' => ?_, fun h h' => ?_⟩
  · rw [tickClock, if_neg (Nat.not_lt.2 h), if_pos h']
  · rw [tickClock, if_neg (Nat.not_lt.2 h), if_neg (Nat.not_lt.2 h')]

theorem tickClock_line (x : Schedule) : (tickClock x).line = x.line := by
  unfold tickClock
  split
  · rfl
  · split <;> rfl

/-- Settles O40: each count has its own step. -/
theorem tickAdvancesTheCounts : Obligations.TickAdvancesTheCounts := by
  refine ⟨fun s lineIn hp hsecond haging hminute hboundary hrun hvisit =>
      have hidle : tickBusy s = false := Bool.eq_false_iff.2 fun h => by
        rw [tickBusy_iff, hsecond, haging, hminute, hboundary, hvisit] at h
        simp [hrun] at h
      ⟨_, rfl, ?_, fun hr => ?_, fun hr => ?_⟩,
    fun s hs => ?_, fun s ha => ?_, fun s lineIn hb => ?_⟩
  · have hsched : (tick lineIn s).sched = { tickClock s.sched with line := (tick lineIn s).sched.line } := by
      rw [tick_idle hp hidle]
      split <;> rfl
    have hclock := tickClock_cases s.sched (tick lineIn s).sched.line
    rw [← hsched] at hclock
    exact hclock
  · rw [tick_idle hp hidle, if_pos hr]
    exact ⟨keeps_sched _ s, tickClock_line _⟩
  · refine ⟨(tick_keeps lineIn s).mono (by decide), ?_⟩
    rw [tick_idle hp hidle, if_neg (by rw [hr]; decide)]
    exact ⟨fun h => if_pos h, fun h => if_neg (Nat.not_lt.2 h), fun h => if_pos h, fun h => if_neg (Nat.not_lt.2 h),
      fun h => if_pos (beq_iff_eq.2 h), fun h => if_neg (mt beq_iff_eq.1 h)⟩
  · refine ⟨_, congrArg Host.Outcome.next (if_pos hs), rfl, rfl, anyOverdue_iff, keeps_time _ s⟩
  · refine ⟨_, congrArg Host.Outcome.next (if_pos ha), rfl, ?_, fun n e he => ?_, fun n hn => ?_, rfl⟩
    · intro b hb
      cases b <;> first | rfl | exact absurd (by decide) hb
    · refine (vmap_at ..).trans ?_
      have hkept (idle : Bool) : (if (!idle) = true then some e else none) = if idle = true then none else some e := by
        cases idle <;> rfl
      rw [he, Option.filter_some]
      exact hkept _
    · refine (vmap_at ..).trans ?_
      rw [hn]
      rfl
  · refine congrArg Host.Outcome.next (a₁ := tick lineIn s) ?_
    rw [tick, if_pos (by rw [(tickBusy_iff s).2 hb, Bool.or_true])]

end Sys2Proof.Machine

/-! SUPPORT. The release of a handoff, its dump and its end. -/

namespace Sys2Proof.Machine

open Sys2Proof

/-! ### The release taken -/

section Release

variable {outcome : HandoffOutcome} {i : Fin 128} {st : Station} {k : Fin 16} {o : Occupied} {s : State}

theorem releaseTaken_keeps (outcome : HandoffOutcome) (i : Fin 128) (st : Station) (k : Fin 16) (o : Occupied) (s : State) :
    KeepsAllBut [.hold, .sta] s (releaseTaken outcome i st k o s) := by
  intro b hb
  cases b <;> first | rfl | exact absurd (by decide) hb

theorem releaseDisposition_eq (outcome : HandoffOutcome) (closed : Bool) :
    releaseDisposition outcome closed = dispositionOf outcome closed := by
  cases outcome <;> cases closed <;> rfl

theorem requestDump_own {refs : List (HoldRef × Disposition)} (h : refs ≠ []) (k : Fin 16) (s : State) :
    (requestDump k refs s).own = { s.own with requests := s.own.requests ++
      if refs.length ≤ 16 then [⟨.dump k, s.control + 0x3000 + k.val * 256, refs.flatMap refBytes⟩]
      else [⟨.dump k, s.control + 0x3000 + k.val * 256, (refs.take 16).flatMap refBytes⟩,
        ⟨.dump k, s.control + 0x3000 + k.val * 256 + 128, (refs.drop 16).flatMap refBytes⟩] } := by
  rw [requestDump, if_neg (by rwa [List.length_eq_zero_iff])]
  by_cases hl : refs.length ≤ 16
  · rw [if_pos hl, if_pos hl]
    rfl
  · rw [if_neg hl, if_neg hl]
    simp only [request, List.append_assoc, List.singleton_append]
    rfl

/-- A release with references requests its dump, and ends with the last response (R137). -/
theorem takeRelease_dumps (h : o.list ≠ []) : Dumps outcome st k o s (takeRelease outcome i st k o s) ∧
    KeepsAllBut [.sta, .hold, .own] s (takeRelease outcome i st k o s) := by
  have hlen : (dumpOf outcome st o).buffer.length = o.list.length := List.length_map _
  have hne : (dumpOf outcome st o).buffer ≠ [] := fun hb => h (List.map_eq_nil_iff.1 hb)
  have heq : takeRelease outcome i st k o s = requestDump k (dumpOf outcome st o).buffer (releaseTaken outcome i st k o s) := by
    rw [takeRelease_eq, if_neg (by rwa [List.length_eq_zero_iff])]
  have hbuffer : (dumpOf outcome st o).buffer = o.list.map fun r => (r, dispositionOf outcome st.closed) :=
    List.map_congr_left fun r _ => by rw [releaseDisposition_eq]
  have hdump : dumpOf outcome st o = ⟨o.station, o.tag, o.start, o.requests, o.list.map fun r => (r, dispositionOf outcome st.closed),
      outcome, st.overflow, false, if o.list.length ≤ 16 then 1 else 2⟩ := by
    have hwrites : dumpWrites (dumpOf outcome st o).buffer.length = if o.list.length ≤ 16 then 1 else 2 := by
      rw [dumpWrites, hlen, if_neg (by rwa [List.length_eq_zero_iff])]
    rw [← hbuffer, ← hwrites]
    rfl
  rw [heq]
  refine ⟨⟨?_, ?_⟩, ((releaseTaken_keeps outcome i st k o s).append (requestDump_keeps k _ _)).mono (by decide)⟩
  · rw [requestDump_keeps _ _ _ .hold (by decide), releaseTaken_slots, vput_same, hdump]
  · rw [requestDump_own hne, hlen, releaseTaken_keeps outcome i st k o s .own (by decide), ← hbuffer]
    rfl

/-- A release without references ends at once. -/
theorem takeRelease_empty (h : o.list = []) : takeRelease outcome i st k o s =
    finishDump k (dumpOf outcome st o) (releaseTaken outcome i st k o s) := by
  have hbuffer : (dumpOf outcome st o).buffer = [] := List.map_eq_nil_iff.2 h
  rw [takeRelease_eq, hbuffer]
  rfl

end Release

/-! ### The end of a dump (R138) -/

/-- The HOLD_RELEASE of a slot that was dumped. -/
def dumpReport (k : Fin 16) (d : Dumping) : Report :=
  .holdRelease d.outcome d.station d.tag d.buffer.length d.overflow k d.fault d.start d.requests

theorem dumpReport_empty {o : Occupied} (h : o.list = []) (outcome : HandoffOutcome) (st : Station) (k : Fin 16) :
    dumpReport k (dumpOf outcome st o) = emptyRelease outcome st k o := by
  have hbuffer : (dumpOf outcome st o).buffer = [] := List.map_eq_nil_iff.2 h
  rw [dumpReport, hbuffer]
  rfl

section Finish

variable {k : Fin 16} {d : Dumping} {s : State}

theorem finishDump_idle (he : s.cmd.executing ≠ .ending k) (hc : ∀ j, s.cmd.executing ≠ .clearing k j) :
    finishDump k d s = putSlot k .free (offer (dumpReport k d) s) := by
  have hexec : (putSlot k .free (offer (dumpReport k d) s)).cmd.executing = s.cmd.executing := offer_executing _ s
  show resumeCommand k _ = _
  unfold resumeCommand
  split
  · next k' h => exact if_neg (fun hk : k' = k => he (hexec.symm.trans (hk ▸ h)))
  · next k' j h => exact if_neg (fun hk : k' = k => hc j (hexec.symm.trans (hk ▸ h)))
  all_goals rfl

theorem finishDump_ending (he : s.cmd.executing = .ending k) :
    finishDump k d s = completeCommand .done [] (putSlot k .free (offer (dumpReport k d) s)) := by
  have hexec : (putSlot k .free (offer (dumpReport k d) s)).cmd.executing = .ending k := (offer_executing _ s).trans he
  show resumeCommand k (putSlot k .free (offer (dumpReport k d) s)) = _
  rw [resumeCommand, hexec]
  exact if_pos rfl

theorem finishDump_clearing {j : Fin 128} (he : s.cmd.executing = .clearing k j) :
    finishDump k d s = setExecuting (.removing j) (putSlot k .free (offer (dumpReport k d) s)) := by
  have hexec : (putSlot k .free (offer (dumpReport k d) s)).cmd.executing = .clearing k j := (offer_executing _ s).trans he
  show resumeCommand k (putSlot k .free (offer (dumpReport k d) s)) = _
  rw [resumeCommand, hexec]
  exact if_pos rfl

end Finish

/-! ### The visit of an uptime second (O41) -/

theorem handoffOf_occupied {h : HoldUnit} {st : Station} {k : Fin 16} {o : Occupied} (hs : st.state = .handoff) (hslot : st.slot = some k)
    (hk : h.slots[k] = .occupied o) : handoffOf h st = some (k, o) := by
  rw [handoffOf, if_pos hs, hslot]
  simp only [hk]

theorem handoffOf_elsewhere {h : HoldUnit} {st : Station} (hs : st.state ≠ .handoff) : handoffOf h st = none := if_neg hs

section Visit

variable {s : State} {i : Fin 128} {st : Station}

theorem visitStation_empty (hst : s.sta.stations[i] = none) : visitStation i s = s := by
  simp only [visitStation, hst]

theorem visitStation_stays (hst : s.sta.stations[i] = some st) (h : st.overdue s.now = false) : visitStation i s = s := by
  simp only [visitStation, hst]
  rw [if_neg (by rw [h]; decide)]

theorem visitStation_candidate (hst : s.sta.stations[i] = some st) (hs : st.state = .candidate) (hd : st.deadline < s.time.secs) :
    visitStation i s = offer (.candidateExpired i st.mac st.est)
      (modStation i (fun st => { st with state := .watch, dwell := 0, deadline := 0 }) s) := by
  simp only [visitStation, hst]
  rw [if_pos (overdue_iff (now := s.now).2 ⟨.inl hs, hd⟩), hs]

theorem visitStation_holdoff (hst : s.sta.stations[i] = some st) (hs : st.state = .holdoff) (hd : st.deadline < s.time.secs) :
    visitStation i s = modStation i (fun st => { st with state := .settled, dwell := 0, deadline := 0 }) s := by
  simp only [visitStation, hst]
  rw [if_pos (overdue_iff (now := s.now).2 ⟨.inr (.inl hs), hd⟩), hs]

theorem visitStation_handoff {k : Fin 16} {o : Occupied} (hst : s.sta.stations[i] = some st) (hs : st.state = .handoff)
    (hd : st.deadline < s.time.secs) (hslot : st.slot = some k) (hk : s.hold.slots[k] = .occupied o) :
    visitStation i s = takeRelease .timedOut i st k o s := by
  simp only [visitStation, hst]
  rw [if_pos (overdue_iff (now := s.now).2 ⟨.inr (.inr hs), hd⟩), hs]
  simp only [handoffOf_occupied hs hslot hk]

end Visit

/-- The three events of the visit (log 5). -/
theorem visitFor_eq {state : Roam} (hs : state = .candidate ∨ state = .holdoff ∨ state = .handoff) (s : State) :
    let moves := ∃ (i : Fin 128) (st : Station), s.sta.stations[i] = some st ∧ st.state = state ∧ st.deadline < s.time.secs
    (s.time.visitDue = true → moves → visitFor state s = visitStations s) ∧
      (s.time.visitDue = false ∨ ¬moves → visitFor state s = s) := by
  refine ⟨fun hv hm => if_pos ?_, fun h => if_neg fun hboth => ?_⟩
  · rw [(overdueIn_iff hs s).2 hm, visiting, hv]
    rfl
  · obtain ⟨hv, ho⟩ := Bool.and_eq_true_iff.1 hboth
    exact h.elim (fun hf => absurd (hv.symm.trans hf) (by decide)) fun hm => hm ((overdueIn_iff hs s).1 ho)

/-- Every command's event but STATION_CLEAR's runs its owner. -/
theorem command_runs : ∀ e ∈ commandTable, e = (0x06, .stationClear) ∨ ∃ owner, ∀ s, exec e.2 s = .next (runCommand e.1 owner s) := by
  intro e he
  fin_cases he <;> first | exact .inl rfl | exact .inr ⟨_, fun _ => rfl⟩

/-- No command is taken while a visit is due (R128, log 5). -/
theorem command_visiting {s : State} (h : s.time.visitDue = true) : ∀ e ∈ commandTable, exec e.2 s = .next s := by
  intro e he
  obtain rfl | ⟨owner, hrun⟩ := command_runs e he
  · have hclear : clearStep s = s := by
      have hv : visiting s = true := h
      unfold clearStep
      split
      · exact if_pos hv
      · exact if_pos hv
      all_goals rfl
    refine congrArg Host.Outcome.next (a₁ := if s.cmd.executing = .idle then runCommand 0x06 stationClear s else clearStep s) ?_
    rw [hclear, runCommand_visiting h, ite_self]
  · rw [hrun, runCommand_visiting h]

/-- A release without references, while no command waits for its slot. -/
theorem takeRelease_empty_reports {outcome : HandoffOutcome} {i : Fin 128} {st : Station} {k : Fin 16} {o : Occupied} {s : State}
    (h : o.list = []) (he : s.cmd.executing ≠ .ending k) (hc : ∀ j, s.cmd.executing ≠ .clearing k j) :
    (takeRelease outcome i st k o s).hold.slots[k] = .free ∧
      Reports [.sta, .hold] [emptyRelease outcome st k o] s (takeRelease outcome i st k o s) := by
  have htaken := releaseTaken_keeps outcome i st k o s
  have hexec : (releaseTaken outcome i st k o s).cmd.executing = s.cmd.executing := by rw [htaken .cmd (by decide)]
  have hsame : SameReporting s (releaseTaken outcome i st k o s) := ⟨rfl, rfl, rfl, rfl⟩
  rw [takeRelease_empty h, finishDump_idle (by rwa [hexec]) (fun j => by rw [hexec]; exact hc j), dumpReport_empty h]
  refine ⟨vput_same _ _ _, (offer_parts _ hsame).cmd, (offer_parts _ hsame).own, ?_⟩
  exact ((htaken.append (offer_keeps _ _)).append (keeps_hold _ _)).mono (by decide)

/-- Settles O41: the visit of each station by the state it is in. -/
theorem uptimeVisitIsTakenWhole : Obligations.UptimeVisitIsTakenWhole := by
  refine ⟨fun s e state he => ?_, fun s i => ⟨visitStation_empty, fun st hst => ⟨fun h => ?_, fun hs hd => ?_, fun hs hd => ?_, ?_⟩⟩,
    fun s hv => ⟨fun i => ?_, command_visiting hv⟩⟩
  · have hexec : exec e s = .next (visitFor state s) ∧ (state = .candidate ∨ state = .holdoff ∨ state = .handoff) := by
      obtain ⟨rfl, rfl⟩ | ⟨rfl, rfl⟩ | ⟨rfl, rfl⟩ := he
      · exact ⟨rfl, .inl rfl⟩
      · exact ⟨rfl, .inr (.inl rfl)⟩
      · exact ⟨rfl, .inr (.inr rfl)⟩
    obtain ⟨htaken, hidle⟩ := visitFor_eq hexec.2 s
    exact ⟨fun hv hm => hexec.1.trans (congrArg _ (htaken hv hm)), fun h => hexec.1.trans (congrArg _ (hidle h))⟩
  · refine visitStation_stays hst (Bool.eq_false_iff.2 fun ho => ?_)
    obtain ⟨hstate, hd⟩ := overdue_iff.1 ho
    obtain hn | hn | hn := h
    · exact hn hd
    all_goals
      rw [hn] at hstate
      simp at hstate
  · have hmod (j : Fin 128) := modStation_at i j (fun st => { st with state := .watch, dwell := 0, deadline := 0 }) s
    have heq := visitStation_candidate hst hs hd
    have hsta : (visitStation i s).sta = (modStation i (fun st => { st with state := .watch, dwell := 0, deadline := 0 }) s).sta := by
      rw [heq, offer_keeps _ _ .sta (by decide)]
    refine ⟨?_, fun j hj => ?_, by rw [hsta]; rfl, by rw [hsta]; rfl, ?_⟩
    · rw [hsta, hmod, if_pos rfl, hst]
      rfl
    · rw [hsta, hmod, if_neg hj]
    · rw [heq]
      exact Reports.intro [_] ⟨rfl, rfl, rfl, rfl⟩ (modStation_keeps i _ s)
  · have hmod (j : Fin 128) := modStation_at i j (fun st => { st with state := .settled, dwell := 0, deadline := 0 }) s
    rw [visitStation_holdoff hst hs hd]
    refine ⟨?_, fun j hj => ?_, rfl, rfl, modStation_keeps i _ s⟩
    · rw [hmod, if_pos rfl, hst]
      rfl
    · rw [hmod, if_neg hj]
  · intro k o hs hd hslot hk hc he
    rw [visitStation_handoff hst hs hd hslot hk]
    exact ⟨takeRelease_released hst, takeRelease_dumps, fun h => takeRelease_empty_reports h he hc⟩
  · exact sampleMovesTheEstimate.2 s i hv

/-! ### HANDOFF_END and DUMP_WRITE_RESPONSE (O42) -/

theorem commanded_queue {s : State} {code : Nat} {p : List Byte} (h : commanded s code p = true) : s.cmd.queue ≠ [] := by
  intro hq
  rw [commanded, hq, Bool.and_false] at h
  cases h

/-- The end of a command leaves the Command Unit free whatever executed before. -/
theorem completeCommand_setExecuting {s : State} (hq : s.cmd.queue ≠ []) (status : Status) (result : List Byte) (e : Executing) :
    completeCommand status result (setExecuting e s) = completeCommand status result s := by
  unfold completeCommand
  cases hc : s.cmd.queue with
  | nil => exact absurd hc hq
  | cons c rest =>
    simp only [show (setExecuting e s).cmd.queue = c :: rest from hc, offer_setExecuting]
    rfl

theorem SameReporting.after {s t u : State} (h : SameReporting s t) (h' : SameReporting t u) : SameReporting s u :=
  ⟨h'.cmd.trans h.cmd, h'.own.trans h.own, h'.win.trans h.win, h'.time.trans h.time⟩

theorem putSlot_frame (k : Fin 16) (x : HandoffSlot) (s : State) : KeepsAllBut [.hold] s (putSlot k x s) ∧ SameReporting s (putSlot k x s) :=
  ⟨keeps_hold _ s, rfl, rfl, rfl, rfl⟩

/-- A command that ends in a state to which its reports have led. -/
theorem EndsWith.offered {bs : List Block} {rs : List Report} {s v : State} (status : Status) (result : List Byte)
    (h : SameReporting (offerAll rs s) v) (hp : v.path = s.path) (hk : KeepsAllBut (bs ++ commandParts) s v) :
    EndsWith bs rs status result s (completeCommand status result v) :=
  ⟨completeCommand_parts status result h (hp.trans (offerAll_keeps rs s .path (by decide)).symm),
    hk.trans ((completeCommand_keeps status result v).mono fun _ hb => List.mem_append_right _ hb)⟩

section HandoffEnd

variable {p : List Byte} {s : State} {i : Fin 128}

theorem handoffEnd_outOfRange (h : 128 ≤ param1 p 0 ∨ 2 ≤ param1 p 1) : handoffEnd p s = completeCommand .refusedRange [] s := by
  unfold handoffEnd
  obtain h | h := h
  · rw [indexOf_none h]
  · rw [show endOutcomeOf (param1 p 1) = none by rw [endOutcomeOf, if_neg (by omega), if_neg (by omega)]]
    cases indexOf 128 (param1 p 0) <;> rfl

theorem handoffEnd_elsewhere (hi : param1 p 0 = i.val) (hp : param1 p 1 ≤ 1)
    (h : s.sta.stations[i] = none ∨ ∃ st, s.sta.stations[i] = some st ∧ st.state ≠ .handoff) :
    handoffEnd p s = completeCommand .refusedState [] s := by
  have hout : ∃ outcome, endOutcomeOf (param1 p 1) = some outcome := by
    obtain h0 | h1 : param1 p 1 = 0 ∨ param1 p 1 = 1 := by omega
    · exact ⟨.departed, by rw [h0]; rfl⟩
    · exact ⟨.stayed, by rw [h1]; rfl⟩
  obtain ⟨outcome, hout⟩ := hout
  obtain hst | ⟨st, hst, hs⟩ := h
  · simp only [handoffEnd, indexOf_eq hi, hout, hst]
  · simp only [handoffEnd, indexOf_eq hi, hout, hst, handoffOf_elsewhere hs]

theorem handoffEnd_takes {st : Station} {k : Fin 16} {o : Occupied} {outcome : HandoffOutcome} (hi : param1 p 0 = i.val)
    (hst : s.sta.stations[i] = some st) (hs : st.state = .handoff) (hslot : st.slot = some k) (hk : s.hold.slots[k] = .occupied o)
    (hout : param1 p 1 = 0 ∧ outcome = .departed ∨ param1 p 1 = 1 ∧ outcome = .stayed) :
    handoffEnd p s = takeRelease outcome i st k o (setExecuting (.ending k) s) := by
  have hcode : endOutcomeOf (param1 p 1) = some outcome := by
    obtain ⟨h, rfl⟩ | ⟨h, rfl⟩ := hout <;> rw [h] <;> rfl
  simp only [handoffEnd, indexOf_eq hi, hcode, hst, handoffOf_occupied hs hslot hk]

end HandoffEnd

/-- A release without references that the HANDOFF_END in execution took. -/
theorem takeRelease_ends {outcome : HandoffOutcome} {i : Fin 128} {st : Station} {k : Fin 16} {o : Occupied} {s : State}
    (h : o.list = []) (hq : s.cmd.queue ≠ []) :
    (takeRelease outcome i st k o (setExecuting (.ending k) s)).hold.slots[k] = .free ∧
      EndsWith [.sta, .hold] [emptyRelease outcome st k o] .done [] s (takeRelease outcome i st k o (setExecuting (.ending k) s)) := by
  have htaken := releaseTaken_keeps outcome i st k o s
  have hsame : SameReporting s (releaseTaken outcome i st k o s) := ⟨rfl, rfl, rfl, rfl⟩
  have hparts := offer_parts (emptyRelease outcome st k o) hsame
  have hcomm : releaseTaken outcome i st k o (setExecuting (.ending k) s) = setExecuting (.ending k) (releaseTaken outcome i st k o s) := by
    cases outcome <;> rfl
  have heq : takeRelease outcome i st k o (setExecuting (.ending k) s) =
      completeCommand .done [] (putSlot k .free (offer (emptyRelease outcome st k o) (releaseTaken outcome i st k o s))) := by
    rw [takeRelease_empty h, hcomm, finishDump_ending rfl, dumpReport_empty h, offer_setExecuting]
    refine completeCommand_setExecuting (s := putSlot k .free (offer (emptyRelease outcome st k o) (releaseTaken outcome i st k o s))) ?_ ..
    intro hnil
    have hqueue := offer_queue (emptyRelease outcome st k o) (releaseTaken outcome i st k o s)
    rw [htaken .cmd (by decide)] at hqueue
    exact hq (hqueue.symm.trans hnil)
  rw [heq]
  obtain ⟨hput, hput'⟩ := putSlot_frame k .free (offer (emptyRelease outcome st k o) (releaseTaken outcome i st k o s))
  have hfreed := (htaken.append (offer_keeps _ _)).append hput
  refine ⟨?_, .offered _ _ (hparts.after hput') (hfreed .path (by decide)) (hfreed.mono (by decide))⟩
  rw [completeCommand_keeps _ _ _ .hold (by decide)]
  exact vput_same _ _ _

/-- The state after the response of a dump write, but for its slot. -/
def dumpAnswered (issued : List (Nat × OwnKind)) (resp : Resp) (s : State) : State :=
  { s with
    own := { s.own with issued := issued }
    hold := { s.hold with dumpFaults := if resp = .okay then s.hold.dumpFaults else min (s.hold.dumpFaults + 1) 4294967295 } }

theorem dumpAnswered_keeps (issued : List (Nat × OwnKind)) (resp : Resp) (s : State) :
    KeepsAllBut [.hold] { s with own := { s.own with issued := issued } } (dumpAnswered issued resp s) := keeps_hold _ _

theorem answerDump_eq (resp : Resp) (d : Dumping) :
    answerDump resp d = { d with awaited := d.awaited - 1, fault := d.fault || decide (resp ≠ .okay) } := by
  cases resp <;> rfl

/-- The answer to a dump write in its slot (R137). -/
theorem dumpResponse_eq {s : State} {before after : List (Nat × OwnKind)} {tag : Nat} {k : Fin 16} {d : Dumping} (resp : Resp)
    (hi : s.own.issued = before ++ (tag, .dump k) :: after) (hne : ∀ e ∈ before ++ after, e.1 ≠ tag)
    (hk : s.hold.slots[k] = .dumping d) : dumpResponse tag resp s =
      if d.awaited ≤ 1 then finishDump k (answerDump resp d) (dumpAnswered (before ++ after) resp s)
      else putSlot k (.dumping (answerDump resp d)) (dumpAnswered (before ++ after) resp s) := by
  obtain ⟨hkind, hdrop⟩ := ownKind_awaited hi hne
  have hzero : (answerDump resp d).awaited = 0 ↔ d.awaited ≤ 1 := by
    rw [answerDump_eq]
    dsimp only
    omega
  simp only [dumpResponse, hkind, hk, hdrop, hzero, dumpAnswered]
  by_cases hr : resp = .okay
  · rw [if_pos hr, if_pos hr]
  · rw [if_neg hr, if_neg hr]
    rfl

/-- The last response of a dump: HOLD_RELEASE, a FREE slot, and the command that waited for it (R138). -/
theorem finishDump_reports {k : Fin 16} {d : Dumping} {u v : State} (h : SameReporting u v) (hv : KeepsAllBut [.hold] u v) :
    (v.cmd.executing = .ending k → EndsWith [.hold] [dumpReport k d] .done [] u (finishDump k d v)) ∧
      (∀ i, v.cmd.executing = .clearing k i →
        (finishDump k d v).cmd = { (offer (dumpReport k d) u).cmd with executing := .removing i } ∧
          (finishDump k d v).own = (offer (dumpReport k d) u).own ∧ KeepsAllBut [.hold, .cmd, .own] u (finishDump k d v)) ∧
      (v.cmd.executing ≠ .ending k → (∀ i, v.cmd.executing ≠ .clearing k i) → Reports [.hold] [dumpReport k d] u (finishDump k d v)) := by
  have hparts := offer_parts (dumpReport k d) h
  obtain ⟨hput, hput'⟩ := putSlot_frame k .free (offer (dumpReport k d) v)
  have hafter := SameReporting.after hparts hput'
  have hfreed : KeepsAllBut ([.hold] ++ reportParts) u (putSlot k .free (offer (dumpReport k d) v)) :=
    ((hv.append (offer_keeps _ v)).append hput).mono (by decide)
  refine ⟨fun he => ?_, fun i he => ?_, fun he hc => ?_⟩
  · rw [finishDump_ending he]
    exact .offered _ _ hafter (hfreed .path (by decide)) (hfreed.mono (by decide))
  · rw [finishDump_clearing he]
    have hset := setExecuting_keeps (.removing i) (putSlot k .free (offer (dumpReport k d) v))
    refine ⟨?_, (hset .own (by decide)).trans hafter.own, (hfreed.append hset).mono (by decide)⟩
    rw [setExecuting, hafter.cmd]
  · rw [finishDump_idle he hc]
    exact ⟨hafter.cmd, hafter.own, hfreed⟩

/-- Settles O42: the release by `takeRelease_dumps` and `takeRelease_ends`, the end of a dump by `finishDump_reports`. -/
theorem handoffEndsWithItsHoldRelease : Obligations.HandoffEndsWithItsHoldRelease := by
  refine ⟨fun s p h => ?_, fun s before after tag k d resp hi hne hk => ⟨_, rfl, ?_⟩⟩
  · have hexec : exec .handoffEnd s = .next (handoffEnd p s) := congrArg _ (runCommand_commanded h handoffEnd)
    refine ⟨fun hr => ⟨_, hexec, ?_⟩, fun i hi hp => ⟨fun hs => ⟨_, hexec, ?_⟩, fun st k o outcome hst hs hslot hk hout => ⟨_, hexec, ?_⟩⟩⟩
    · rw [handoffEnd_outOfRange hr]
      exact TurnedAway.intro .refusedRange s
    · rw [handoffEnd_elsewhere hi hp hs]
      exact TurnedAway.intro .refusedState s
    · rw [handoffEnd_takes hi hst hs hslot hk hout]
      refine ⟨takeRelease_released (s := setExecuting (.ending k) s) hst, fun hl => ?_, fun hl => takeRelease_ends hl (commanded_queue h)⟩
      obtain ⟨hdumps, hkeep⟩ := takeRelease_dumps (outcome := outcome) (i := i) (st := st) (k := k) (s := setExecuting (.ending k) s) hl
      exact ⟨hdumps, hkeep .cmd (by decide), ((setExecuting_keeps (.ending k) s).append hkeep).mono (by decide)⟩
  · have hv := dumpAnswered_keeps (before ++ after) resp s
    have hreport : dumpReport k (answerDump resp d) = .holdRelease d.outcome d.station d.tag d.buffer.length d.overflow k
        (d.fault || decide (resp ≠ .okay)) d.start d.requests := by
      rw [answerDump_eq]
      rfl
    show OtherEntries k s.hold.slots (dumpResponse tag resp s).hold.slots ∧ _
    rw [dumpResponse_eq resp hi hne hk]
    by_cases hlast : d.awaited ≤ 1
    · have hhold := (finishDump_tables k (answerDump resp d) (dumpAnswered (before ++ after) resp s)).2
      obtain ⟨hends, hclears, hidle⟩ := finishDump_reports (k := k) (d := answerDump resp d)
        (u := { s with own := { s.own with issued := before ++ after } }) (v := dumpAnswered (before ++ after) resp s) ⟨rfl, rfl, rfl, rfl⟩ hv
      rw [hreport] at hends hclears hidle
      rw [if_pos hlast, hhold]
      refine ⟨fun j hj => vput_ne _ _ _ _ hj, rfl, fun h => absurd hlast (by omega), fun _ => ⟨vput_same _ _ _, hends, fun i he => ?_, hidle⟩⟩
      obtain ⟨hcmd, hown, hkeep⟩ := hclears i he
      exact ⟨hcmd, hown, ((keeps_own _ s).append hkeep).mono (by decide)⟩
    · rw [if_neg hlast]
      refine ⟨fun j hj => vput_ne _ _ _ _ hj, rfl, fun _ => ⟨(vput_same _ _ _).trans (by rw [answerDump_eq]), rfl, ?_⟩,
        fun h => absurd h hlast⟩
      exact (((keeps_own _ s).append hv).append (keeps_hold _ _)).mono (by decide)

/-! ### STATION_CLEAR (O50) -/

theorem commanded_executing {s : State} {code : Nat} {p : List Byte} (h : commanded s code p = true) : s.cmd.executing = .idle := by
  simp only [commanded, Bool.and_eq_true, decide_eq_true_iff] at h
  exact h.1.1

section StationClear

variable {p : List Byte} {s : State} {i : Fin 128}

theorem exec_stationClear_commanded (h : commanded s 0x06 p = true) : exec .stationClear s = .next (stationClear p s) := by
  show Host.Outcome.next (if s.cmd.executing = .idle then runCommand 0x06 stationClear s else clearStep s) = _
  rw [if_pos (commanded_executing h), runCommand_commanded h]

theorem exec_stationClear_removing (h : s.cmd.executing = .removing i) (hv : s.time.visitDue = false) :
    exec .stationClear s = .next (clearFlows i s) := by
  show Host.Outcome.next (if s.cmd.executing = .idle then runCommand 0x06 stationClear s else clearStep s) = _
  rw [if_neg (by rw [h]; nofun), clearStep, h]
  exact congrArg _ (if_neg (by rw [visiting, hv]; decide))

theorem exec_stationClear_emptying (h : s.cmd.executing = .emptying i) (hv : s.time.visitDue = false) :
    exec .stationClear s = .next (completeCommand .done [] (emptyStation i s)) := by
  show Host.Outcome.next (if s.cmd.executing = .idle then runCommand 0x06 stationClear s else clearStep s) = _
  rw [if_neg (by rw [h]; nofun), clearStep, h]
  exact congrArg _ (if_neg (by rw [visiting, hv]; decide))

theorem stationClear_outOfRange (h : 128 ≤ param1 p 0) : stationClear p s = completeCommand .refusedRange [] s := by
  rw [stationClear, indexOf_none h]

theorem stationClear_empty (hi : param1 p 0 = i.val) (hst : s.sta.stations[i] = none) :
    stationClear p s = completeCommand .refusedState [] s := by
  simp only [stationClear, indexOf_eq hi, hst]

theorem stationClear_plain {st : Station} (hi : param1 p 0 = i.val) (hst : s.sta.stations[i] = some st) (hs : st.state ≠ .handoff) :
    stationClear p s = clearFlows i s := by
  simp only [stationClear, indexOf_eq hi, hst, handoffOf_elsewhere hs]

theorem stationClear_handoff {st : Station} {k : Fin 16} {o : Occupied} (hi : param1 p 0 = i.val) (hst : s.sta.stations[i] = some st)
    (hs : st.state = .handoff) (hslot : st.slot = some k) (hk : s.hold.slots[k] = .occupied o) :
    stationClear p s = takeRelease .cleared i st k o (setExecuting (.clearing k i) s) := by
  simp only [stationClear, indexOf_eq hi, hst, handoffOf_occupied hs hslot hk]

end StationClear

/-- The second step of a STATION_CLEAR (R32, R77). -/
theorem clearFlows_spec (i : Fin 128) (s : State) : (clearFlows i s).cmd = { s.cmd with executing := .emptying i } ∧
    FlowsOfRemoved i s (clearFlows i s) ∧ KeepsAllBut [.cls, .cmd] s (clearFlows i s) :=
  ⟨rfl, removeStationFlows_spec i s, (keeps_cls _ s).append (setExecuting_keeps _ _)⟩

/-- A release without references that the STATION_CLEAR in execution took. -/
theorem takeRelease_clears {outcome : HandoffOutcome} {i : Fin 128} {st : Station} {k : Fin 16} {o : Occupied} {s : State}
    (h : o.list = []) :
    let t := takeRelease outcome i st k o (setExecuting (.clearing k i) s)
    t.hold.slots[k] = .free ∧ t.cmd = { (offer (emptyRelease outcome st k o) s).cmd with executing := .removing i } ∧
      t.own = (offer (emptyRelease outcome st k o) s).own ∧ KeepsAllBut [.sta, .hold, .own, .cmd] s t := by
  have hset := setExecuting_keeps (.clearing k i) s
  have htaken := releaseTaken_keeps outcome i st k o (setExecuting (.clearing k i) s)
  have hexec : (releaseTaken outcome i st k o (setExecuting (.clearing k i) s)).cmd.executing = .clearing k i := by
    rw [htaken .cmd (by decide)]
    rfl
  have hsame : SameReporting (setExecuting (.clearing k i) s) (releaseTaken outcome i st k o (setExecuting (.clearing k i) s)) :=
    ⟨rfl, rfl, rfl, rfl⟩
  have hparts := offer_parts (emptyRelease outcome st k o) hsame
  rw [offer_setExecuting] at hparts
  dsimp only
  rw [takeRelease_empty h, finishDump_clearing hexec, dumpReport_empty h]
  obtain ⟨hput, hput'⟩ := putSlot_frame k .free
    (offer (emptyRelease outcome st k o) (releaseTaken outcome i st k o (setExecuting (.clearing k i) s)))
  have hafter := SameReporting.after hparts hput'
  refine ⟨vput_same _ _ _, ?_, (setExecuting_keeps _ _ .own (by decide)).trans hafter.own, ?_⟩
  · rw [setExecuting, hafter.cmd]
    rfl
  · exact ((((hset.append htaken).append (offer_keeps _ _)).append hput).append (setExecuting_keeps _ _)).mono (by decide)

/-- Settles O50: the three steps of a STATION_CLEAR. -/
theorem stationClearRemovesFlowsFirst : Obligations.StationClearRemovesFlowsFirst := by
  refine ⟨fun s p h => ?_, fun s i he hv => ⟨_, exec_stationClear_removing he hv, clearFlows_spec i s⟩, fun s i b rest he hq hv => ?_⟩
  · have hexec := exec_stationClear_commanded h
    refine ⟨fun hr => ⟨_, hexec, ?_⟩, fun i hi => ⟨fun hst => ⟨_, hexec, ?_⟩, fun st hst => ⟨fun hs => ⟨_, hexec, ?_⟩,
      fun k o hs hslot hk => ⟨_, hexec, ?_⟩⟩⟩⟩
    · rw [stationClear_outOfRange hr]
      exact TurnedAway.intro .refusedRange s
    · rw [stationClear_empty hi hst]
      exact TurnedAway.intro .refusedState s
    · rw [stationClear_plain hi hst hs]
      exact clearFlows_spec i s
    · rw [stationClear_handoff hi hst hs hslot hk]
      refine ⟨takeRelease_released (s := setExecuting (.clearing k i) s) hst, fun hl => ?_, takeRelease_clears⟩
      obtain ⟨hdumps, hkeep⟩ :=
        takeRelease_dumps (outcome := .cleared) (i := i) (st := st) (k := k) (s := setExecuting (.clearing k i) s) hl
      exact ⟨hdumps, hkeep .cmd (by decide), ((setExecuting_keeps (.clearing k i) s).append hkeep).mono (by decide)⟩
  · have hkeep : KeepsAllBut [.sta, .cls] s (emptyStation i s) := ((keeps_cls _ s).append (keeps_sta _ _)).mono (by decide)
    have hend := completeCommand_keeps .done [] (emptyStation i s)
    refine ⟨_, exec_stationClear_emptying he hv, EndsWith.intro [] .done [] ⟨rfl, rfl, rfl, rfl⟩ rfl hkeep, ?_, fun j hj => ?_, ?_, ?_, ?_⟩
    · rw [hend .sta (by decide)]
      exact vput_same _ _ _
    · rw [hend .sta (by decide)]
      exact vput_ne _ _ _ _ hj
    · rw [hend .sta (by decide)]
      rfl
    · rw [hend .sta (by decide)]
      rfl
    · rw [FlowsOfRemoved, hend .cls (by decide)]
      exact removeStationFlows_spec i s

end Sys2Proof.Machine

/-! SUPPORT. The commands, and the events of the commands that have no occasion. -/

namespace Sys2Proof.Machine

open Sys2Proof

/-! ### Unknown codes, flags, and events without an occasion (O47) -/

section Front

variable {s : State} {b : List Byte} {rest : List (List Byte)}

theorem nextCommand_front (hq : s.cmd.queue = b :: rest) (he : s.cmd.executing = .idle) {code : Nat} (hcode : (byteAt b 0).toNat = code) :
    nextCommand code s = some b := by
  simp only [nextCommand, hq, he, if_pos hcode]

theorem nextCommand_none (hq : s.cmd.queue = b :: rest) {code : Nat} (h : s.cmd.executing ≠ .idle ∨ (byteAt b 0).toNat ≠ code) :
    nextCommand code s = none := by
  unfold nextCommand
  split
  · next he hc =>
    rw [hq, List.cons.injEq] at hc
    rw [if_neg]
    rw [← hc.1]
    exact h.resolve_left fun hn => hn he
  · rfl

theorem runCommand_elsewhere (hq : s.cmd.queue = b :: rest) {code : Nat} (h : s.cmd.executing ≠ .idle ∨ (byteAt b 0).toNat ≠ code)
    (owner : List Byte → State → State) : runCommand code owner s = s := by
  rw [runCommand, nextCommand_none hq h, ite_self]

theorem runCommand_flags (hq : s.cmd.queue = b :: rest) (he : s.cmd.executing = .idle) (hv : s.time.visitDue = false)
    {code : Nat} (hcode : (byteAt b 0).toNat = code) (hflags : byteAt b 1 ≠ 0) (owner : List Byte → State → State) :
    runCommand code owner s = completeCommand .refusedRange [] s := by
  rw [runCommand, if_neg (by rw [visiting, hv]; decide), nextCommand_front hq he hcode]
  exact if_pos hflags

theorem unknownCommand_known (hq : s.cmd.queue = b :: rest)
    (h : s.cmd.executing ≠ .idle ∨ 1 ≤ (byteAt b 0).toNat ∧ (byteAt b 0).toNat ≤ 0x20) : unknownCommand s = s := by
  unfold unknownCommand
  split
  · next he hc =>
    rw [hq, List.cons.injEq] at hc
    rw [if_pos]
    rw [← hc.1]
    exact h.resolve_left fun hn => hn he
  · rfl

theorem unknownCommand_unknown (hq : s.cmd.queue = b :: rest) (he : s.cmd.executing = .idle)
    (h : (byteAt b 0).toNat = 0 ∨ 0x20 < (byteAt b 0).toNat) : unknownCommand s = completeCommand .refusedUnknown [] s := by
  simp only [unknownCommand, he, hq]
  exact if_neg (by omega)

end Front

/-- The steps of a STATION_CLEAR need it to stand in execution. -/
theorem clearStep_elsewhere {s : State} (h : ∀ i, s.cmd.executing ≠ .removing i ∧ s.cmd.executing ≠ .emptying i) : clearStep s = s := by
  unfold clearStep
  split
  · next i he => exact absurd he (h i).1
  · next i he => exact absurd he (h i).2
  all_goals rfl

/-- Settles O47: a command's event runs it only at the front of the queue, with the Command Unit free. -/
theorem unknownCodesAndFlagsAreRefused : Obligations.UnknownCodesAndFlagsAreRefused := by
  intro s b rest hq
  refine ⟨fun he => ⟨fun h => ?_, fun hv hflags e hmem hcode => ?_⟩, fun h0 h => ?_, fun he => ?_, fun e hmem h hclear => ?_⟩
  · exact ⟨_, congrArg Host.Outcome.next (unknownCommand_unknown hq he h), TurnedAway.intro _ s⟩
  · refine ⟨_, ?_, TurnedAway.intro .refusedRange s⟩
    obtain rfl | ⟨owner, hrun⟩ := command_runs e hmem
    · refine congrArg Host.Outcome.next (a₁ := if s.cmd.executing = .idle then runCommand 0x06 stationClear s else clearStep s) ?_
      rw [if_pos he, runCommand_flags hq he hv hcode hflags]
    · rw [hrun, runCommand_flags hq he hv hcode hflags]
  · exact congrArg Host.Outcome.next (unknownCommand_known hq (.inr ⟨by omega, h⟩))
  · exact congrArg Host.Outcome.next (unknownCommand_known hq (.inl he))
  · obtain rfl | ⟨owner, hrun⟩ := command_runs e hmem
    · refine congrArg Host.Outcome.next (a₁ := if s.cmd.executing = .idle then runCommand 0x06 stationClear s else clearStep s) ?_
      rw [runCommand_elsewhere hq h, clearStep_elsewhere (hclear rfl), ite_self]
    · rw [hrun, runCommand_elsewhere hq h]

/-! ### Operands of the window commands -/

theorem indexOf_eq_some_iff {n m : Nat} {k : Fin n} : indexOf n m = some k ↔ m = k.val := by
  refine ⟨fun h => ?_, indexOf_eq⟩
  rw [indexOf] at h
  split at h
  · cases h
    rfl
  · cases h

theorem byteOrderOf_iff {n : Nat} {o : ByteOrder} : byteOrderOf n = some o ↔ n = 0 ∧ o = .little ∨ n = 1 ∧ o = .big := by
  match n with
  | 0 | 1 => simp [byteOrderOf, eq_comm]
  | n + 2 => simp [byteOrderOf]

theorem windowKindOf_iff {n : Nat} {k : WindowKind} : windowKindOf n = some k ↔
    n = 1 ∧ k = .txRing ∨ n = 2 ∧ k = .rxStatus ∨ n = 3 ∧ k = .frameBuffer ∨ n = 4 ∧ k = .peer := by
  match n with
  | 0 | 1 | 2 | 3 | 4 => simp [windowKindOf, eq_comm]
  | n + 5 => simp [windowKindOf]

theorem ofNat4_iff {x : BitVec 4} {n : Nat} : n < 16 ∧ BitVec.ofNat 4 n = x ↔ x.toNat = n := by
  constructor
  · rintro ⟨h, rfl⟩
    rw [BitVec.toNat_ofNat]
    exact Nat.mod_eq_of_lt h
  · rintro rfl
    exact ⟨x.isLt, BitVec.ofNat_toNat ..⟩

theorem queueMapOf_iff {u n b k : Nat} {q : QueueMap} : queueMapOf [u, n, b, k] = some q ↔
    q.urgent.toNat = u ∧ q.normal.toNat = n ∧ q.bulk.toNat = b ∧ q.park.toNat = k := by
  obtain ⟨qu, qn, qb, qk⟩ := q
  rw [← ofNat4_iff, ← ofNat4_iff, ← ofNat4_iff, ← ofNat4_iff, queueMapOf]
  split
  · simp only [Option.some.injEq, QueueMap.mk.injEq]
    tauto
  · simp only [reduceCtorEq, false_iff]
    tauto

theorem strideOk_iff {n : Nat} : strideOk n = true ↔ ∃ e, 8 ≤ e ∧ e ≤ 14 ∧ n = 2 ^ e := by
  simp only [strideOk, Bool.or_eq_true, beq_iff_eq]
  constructor
  · rintro ((((((rfl | rfl) | rfl) | rfl) | rfl) | rfl) | rfl)
    exacts [⟨8, by decide⟩, ⟨9, by decide⟩, ⟨10, by decide⟩, ⟨11, by decide⟩, ⟨12, by decide⟩, ⟨13, by decide⟩, ⟨14, by decide⟩]
  · rintro ⟨e, h8, h14, rfl⟩
    interval_cases e <;> decide

theorem rangeOk_iff {base size : Nat} : rangeOk base size = true ↔ base % 4096 = 0 ∧ base < 0x1C000000 ∧ size % 4096 = 0 ∧
    4096 ≤ size ∧ size ≤ 0x10000000 ∧ base + size ≤ 0x1C000000 := by
  simp only [rangeOk, Bool.and_eq_true, beq_iff_eq, decide_eq_true_iff, and_assoc]
  rfl

section WindowRecord

variable {w : Windows} {p : List Byte} {r : WindowRec}

/-- The record a WINDOW_SET gets is one asked for (R10 steps 1 to 3). -/
theorem windowRecordOf_asked (h : windowRecordOf w (windowParams p) = some r) : WindowAsked w p r := by
  unfold windowRecordOf at h
  split at h
  · next hr =>
    obtain ⟨h1, h2, h3, h4, h5, h6⟩ := rangeOk_iff.1 hr
    refine ⟨h1, h2, h3, h4, h5, h6, ?_⟩
    split at h
    · next hk =>
      have hcode : (windowParams p).kind = 1 := by simpa using windowKindOf_iff.1 hk
      split at h
      · next order prof q ho hp hq =>
        obtain ⟨hu, hn, hb, hpark⟩ := queueMapOf_iff.1 hq
        split at h
        · next hv =>
          cases h
          exact .inl ⟨hcode, rfl, byteOrderOf_iff.1 ho, (indexOf_eq_some_iff.1 hp).symm, hv, hu, hn, hb, hpark, rfl⟩
        · cases h
      · cases h
    · next hk =>
      have hcode : (windowParams p).kind = 2 := by simpa using windowKindOf_iff.1 hk
      split at h
      · next order prof ho hp =>
        split at h
        · next hv =>
          cases h
          exact .inr (.inl ⟨hcode, rfl, byteOrderOf_iff.1 ho, (indexOf_eq_some_iff.1 hp).symm, hv, rfl⟩)
        · cases h
      · cases h
    · next hk =>
      have hcode : (windowParams p).kind = 3 := by simpa using windowKindOf_iff.1 hk
      split at h
      · next hs =>
        cases h
        exact .inr (.inr (.inl ⟨hcode, rfl, strideOk_iff.1 hs, rfl⟩))
      · cases h
    · next hk =>
      have hcode : (windowParams p).kind = 4 := by simpa using windowKindOf_iff.1 hk
      split at h
      · next order ho =>
        cases h
        exact .inr (.inr (.inr ⟨hcode, rfl, byteOrderOf_iff.1 ho, rfl⟩))
      · cases h
    · cases h
  · cases h

/-- A record asked for is the one that a WINDOW_SET gets. -/
theorem windowRecordOf_of_asked (h : WindowAsked w p r) : windowRecordOf w (windowParams p) = some r := by
  obtain ⟨h1, h2, h3, h4, h5, h6, hkind⟩ := h
  have hr : rangeOk (windowParams p).base (windowParams p).size = true := rangeOk_iff.2 ⟨h1, h2, h3, h4, h5, h6⟩
  rw [windowRecordOf, if_pos hr]
  obtain ⟨hcode, hk, ho, hp, hv, hu, hn, hb, hpark, hrec⟩ | ⟨hcode, hk, ho, hp, hv, hrec⟩ | ⟨hcode, hk, hs, hrec⟩ |
    ⟨hcode, hk, ho, hrec⟩ := hkind
  · have hkindOf : windowKindOf (windowParams p).kind = some .txRing := windowKindOf_iff.2 (.inl ⟨hcode, rfl⟩)
    have horder : byteOrderOf (windowParams p).order = some r.order := byteOrderOf_iff.2 ho
    have hprof : indexOf 4 (windowParams p).profile = some r.profile := indexOf_eq_some_iff.2 hp.symm
    have hq : queueMapOf (windowParams p).queues = some r.queues := queueMapOf_iff.2 ⟨hu, hn, hb, hpark⟩
    simp only [hkindOf, horder, hprof, hq, if_pos hv]
    rw [hk] at hrec
    exact congrArg some hrec.symm
  · have hkindOf : windowKindOf (windowParams p).kind = some .rxStatus := windowKindOf_iff.2 (.inr (.inl ⟨hcode, rfl⟩))
    have horder : byteOrderOf (windowParams p).order = some r.order := byteOrderOf_iff.2 ho
    have hprof : indexOf 4 (windowParams p).profile = some r.profile := indexOf_eq_some_iff.2 hp.symm
    simp only [hkindOf, horder, hprof, if_pos hv]
    rw [hk] at hrec
    exact congrArg some hrec.symm
  · have hkindOf : windowKindOf (windowParams p).kind = some .frameBuffer := windowKindOf_iff.2 (.inr (.inr (.inl ⟨hcode, rfl⟩)))
    have hstride : strideOk (windowParams p).stride = true := strideOk_iff.2 hs
    simp only [hkindOf, if_pos hstride]
    rw [hk] at hrec
    exact congrArg some hrec.symm
  · have hkindOf : windowKindOf (windowParams p).kind = some .peer := windowKindOf_iff.2 (.inr (.inr (.inr ⟨hcode, rfl⟩)))
    have horder : byteOrderOf (windowParams p).order = some r.order := byteOrderOf_iff.2 ho
    simp only [hkindOf, horder]
    rw [hk] at hrec
    exact congrArg some hrec.symm

end WindowRecord

/-! ### Operands of the profile commands -/

theorem flagOf_iff {n : Nat} {b : Bool} : flagOf n = some b ↔ n ≤ 1 ∧ b = decide (n = 1) := by
  match n with
  | 0 | 1 => simp [flagOf, eq_comm]
  | n + 2 => simp [flagOf]

theorem descProfileOf_iff {p : List Byte} {d : DescProfile} : descProfileOf p 1 = some d ↔
    d = ⟨true, param1 p 1, param1 p 2, param1 p 3, param1 p 4, param1 p 5, ⟨param1 p 6, param1 p 7, decide (param1 p 8 = 1)⟩,
       ⟨param1 p 9, param1 p 10, decide (param1 p 11 = 1)⟩⟩ ∧ param1 p 8 ≤ 1 ∧ param1 p 11 ≤ 1 := by
  unfold descProfileOf
  constructor
  · intro h
    split at h
    · next ready discard hready hdiscard =>
      obtain ⟨h8, rfl⟩ := flagOf_iff.1 hready
      obtain ⟨h11, rfl⟩ := flagOf_iff.1 hdiscard
      cases h
      exact ⟨rfl, h8, h11⟩
    · cases h
  · rintro ⟨rfl, h8, h11⟩
    have hready : flagOf (param1 p (1 + 7)) = some _ := flagOf_iff.2 ⟨h8, rfl⟩
    have hdiscard : flagOf (param1 p (1 + 10)) = some _ := flagOf_iff.2 ⟨h11, rfl⟩
    simp only [hready, hdiscard]

theorem statusProfileOf_iff {p : List Byte} {d : StatusProfile} : statusProfileOf p 1 = some d ↔
    d = ⟨true, param1 p 1, param1 p 2, param1 p 3, ⟨param1 p 4, param1 p 5, decide (param1 p 6 = 1)⟩,
       ⟨param1 p 7, param1 p 8, decide (param1 p 9 = 1)⟩⟩ ∧ param1 p 6 ≤ 1 ∧ param1 p 9 ≤ 1 := by
  unfold statusProfileOf
  constructor
  · intro h
    split at h
    · next valid drop hvalid hdrop =>
      obtain ⟨h6, rfl⟩ := flagOf_iff.1 hvalid
      obtain ⟨h9, rfl⟩ := flagOf_iff.1 hdrop
      cases h
      exact ⟨rfl, h6, h9⟩
    · cases h
  · rintro ⟨rfl, h6, h9⟩
    have hvalid : flagOf (param1 p (1 + 5)) = some _ := flagOf_iff.2 ⟨h6, rfl⟩
    have hdrop : flagOf (param1 p (1 + 8)) = some _ := flagOf_iff.2 ⟨h9, rfl⟩
    simp only [hvalid, hdrop]

theorem not_eq_true_iff (b : Bool) : (!b) = true ↔ ¬b = true := by cases b <;> decide

theorem not_inField {b off n : Nat} : ¬inField b off n = true ↔ Apart b 1 off n := by
  rw [inField, Bool.and_eq_true, decide_eq_true_iff, decide_eq_true_iff, Apart]
  omega

theorem flagInQueue_iff {d : DescProfile} {f : FlagPos} : flagInQueue d f = true ↔
    f.byte = d.queueByte ∧ d.queueBit ≤ f.bit ∧ f.bit ≤ d.queueBit + 3 := by
  simp only [flagInQueue, Bool.and_eq_true, beq_iff_eq, decide_eq_true_iff, and_assoc]

theorem descAsked_iff {p : List Byte} {d : DescProfile} : DescAsked p d ↔ descProfileOf p 1 = some d ∧ d.ok = true := by
  rw [descProfileOf_iff, and_assoc, and_assoc, DescAsked]
  refine and_congr_right fun _ => and_congr_right fun _ => and_congr_right fun _ => ?_
  simp only [DescProfile.ok, Apart, Bool.and_eq_true, Bool.or_eq_true, beq_iff_eq, decide_eq_true_iff, not_eq_true_iff, not_or, not_inField,
    flagInQueue_iff, forall_eq_or_imp, forall_eq, and_assoc]

theorem statusAsked_iff {p : List Byte} {d : StatusProfile} : StatusAsked p d ↔ statusProfileOf p 1 = some d ∧ d.ok = true := by
  rw [statusProfileOf_iff, and_assoc, and_assoc, StatusAsked]
  refine and_congr_right fun _ => and_congr_right fun _ => and_congr_right fun _ => ?_
  simp only [StatusProfile.ok, Bool.and_eq_true, Bool.or_eq_true, beq_iff_eq, decide_eq_true_iff, not_eq_true_iff, not_or, not_inField,
    forall_eq_or_imp, forall_eq, and_assoc, or_assoc]

/-! ### Commands that end at once -/

section AtOnce

variable {f : List Byte → State → Done} {p : List Byte} {s u : State} {code : Nat} {c : Instr}

/-- The event of a command that stands at the front and ends at once. -/
theorem exec_commanded (h : commanded s code p = true) (hrun : ∀ s, exec c s = .next (runCommand code (atOnce f) s)) :
    exec c s = .next (atOnce f p s) := by
  rw [hrun, runCommand_commanded h]

/-- What the end of the command leaves of the owner's state. -/
theorem atOnce_leaves {status : Status} {result : List Byte} (hf : f p s = ⟨u, status, result⟩) : KeepsAllBut commandParts u (atOnce f p s) := by
  rw [atOnce_eq hf]
  exact completeCommand_keeps status result u

theorem atOnce_ends {bs : List Block} {status : Status} {result : List Byte} (hf : f p s = ⟨u, status, result⟩) (hr : SameReporting s u)
    (hpath : u.path = s.path) (hk : KeepsAllBut bs s u) : EndsWith bs [] status result s (atOnce f p s) := by
  rw [atOnce_eq hf]
  exact EndsWith.intro [] status result hr hpath hk

end AtOnce

/-! ### WINDOW_SET, WINDOW_CLEAR and the profile commands (O48) -/

theorem softSlot_eq {n : Nat} {k : Fin 16} (h : n = k.val) (h2 : 2 ≤ k.val) : softSlot n = some k := by
  rw [softSlot, if_pos (h ▸ h2), indexOf_eq h]

theorem softSlot_none {n : Nat} (h : n < 2 ∨ 16 ≤ n) : softSlot n = none := by
  by_cases h2 : 2 ≤ n
  · rw [softSlot, if_pos h2, indexOf_none (by omega)]
  · rw [softSlot, if_neg h2]

theorem overlapsOther_iff {w : Windows} {k : Fin 16} {base size : Nat} : overlapsOther w k base size = true ↔
    ∃ j : Fin 16, j ≠ k ∧ (w.slots[j]).kind ≠ .off ∧ base < (w.slots[j]).base + (w.slots[j]).size ∧ (w.slots[j]).base < base + size := by
  simp only [overlapsOther, List.any_eq_true, List.mem_finRange, true_and, Bool.and_eq_true, bne_iff_ne, decide_eq_true_iff, and_assoc]

section Windows

variable {p : List Byte} {s : State}

theorem windowSet_refused (h : param1 p 0 < 2 ∨ 16 ≤ param1 p 0 ∨ ¬∃ r, WindowAsked s.win p r) : windowSet p s = refuse .refusedRange s := by
  unfold windowSet
  dsimp only
  obtain hslot | hrec : (param1 p 0 < 2 ∨ 16 ≤ param1 p 0) ∨ ¬∃ r, WindowAsked s.win p r := by tauto
  · rw [show softSlot (windowParams p).slot = none from softSlot_none hslot]
  · have hnone : windowRecordOf s.win (windowParams p) = none :=
      Option.eq_none_iff_forall_ne_some.2 fun r hr => hrec ⟨r, windowRecordOf_asked hr⟩
    rw [hnone]
    cases softSlot (windowParams p).slot <;> rfl

theorem windowSet_asked {k : Fin 16} {r : WindowRec} (hk : param1 p 0 = k.val) (h2 : 2 ≤ k.val) (hr : WindowAsked s.win p r) :
    windowSet p s = if overlapsOther s.win k r.base r.size then refuse .refusedOverlap s else done (putWindow k r s) := by
  unfold windowSet
  dsimp only
  rw [show softSlot (windowParams p).slot = some k from softSlot_eq hk h2, windowRecordOf_of_asked hr]

theorem windowClear_slot {k : Fin 16} (hk : param1 p 0 = k.val) (h2 : 2 ≤ k.val) :
    windowClear p s = done (putWindow k WindowRec.off s) := by
  rw [windowClear, softSlot_eq hk h2]

/-- A record of a software slot written: the control window stands. -/
theorem putWindow_ends {f : List Byte → State → Done} {k : Fin 16} {r : WindowRec} (h2 : 2 ≤ k.val)
    (hf : f p s = done (putWindow k r s)) :
    (atOnce f p s).win = { s.win with slots := (atOnce f p s).win.slots } ∧ (atOnce f p s).win.slots[k] = r ∧
      OtherEntries k s.win.slots (atOnce f p s).win.slots ∧ EndsWith [.win] [] .done [] s (atOnce f p s) := by
  have hwin : (atOnce f p s).win = (putWindow k r s).win := atOnce_leaves hf .win (by decide)
  have hcontrol : (putWindow k r s).control = s.control :=
    congrArg WindowRec.base (vput_ne s.win.slots k 0 r fun h => by rw [← h] at h2; exact absurd h2 (by decide))
  rw [hwin]
  exact ⟨rfl, vput_same _ _ _, fun j hj => vput_ne _ _ _ _ hj, atOnce_ends hf ⟨rfl, rfl, hcontrol, rfl⟩ rfl (keeps_win _ s)⟩

theorem descProfileSet_refused (h : 4 ≤ param1 p 0 ∨ ¬∃ d, DescAsked p d) : descProfileSet p s = refuse .refusedRange s := by
  unfold descProfileSet
  split
  · next i d hi hd =>
    refine if_neg fun hok => ?_
    obtain h4 | hn := h
    · exact absurd ((indexOf_none h4).symm.trans hi) nofun
    · exact hn ⟨d, descAsked_iff.2 ⟨hd, hok⟩⟩
  · rfl

theorem statusProfileSet_refused (h : 4 ≤ param1 p 0 ∨ ¬∃ d, StatusAsked p d) : statusProfileSet p s = refuse .refusedRange s := by
  unfold statusProfileSet
  split
  · next i d hi hd =>
    refine if_neg fun hok => ?_
    obtain h4 | hn := h
    · exact absurd ((indexOf_none h4).symm.trans hi) nofun
    · exact hn ⟨d, statusAsked_iff.2 ⟨hd, hok⟩⟩
  · rfl

theorem descProfileSet_asked {k : Fin 4} {d : DescProfile} (hk : param1 p 0 = k.val) (hd : DescAsked p d) :
    descProfileSet p s = done { s with win := { s.win with desc := vput s.win.desc k d } } := by
  obtain ⟨hof, hok⟩ := descAsked_iff.1 hd
  simp only [descProfileSet, indexOf_eq hk, hof, if_pos hok]

theorem statusProfileSet_asked {k : Fin 4} {d : StatusProfile} (hk : param1 p 0 = k.val) (hd : StatusAsked p d) :
    statusProfileSet p s = done { s with win := { s.win with status := vput s.win.status k d } } := by
  obtain ⟨hof, hok⟩ := statusAsked_iff.1 hd
  simp only [statusProfileSet, indexOf_eq hk, hof, if_pos hok]

end Windows

/-- Settles O48: a record or profile asked for is written whole; anything else is refused. -/
theorem windowsAndProfilesAreReplacedWhole : Obligations.WindowsAndProfilesAreReplacedWhole := by
  refine ⟨fun s p h => ?_, fun s p h => ?_, fun s p h => ?_, fun s p h => ?_⟩
  · have hexec : exec .windowSet s = .next (atOnce windowSet p s) := exec_commanded h fun _ => rfl
    refine ⟨fun hr => ⟨_, hexec, atOnce_refused (windowSet_refused hr)⟩, fun k r hk h2 hr => ⟨_, hexec, fun ho => ?_, fun ho => ?_⟩⟩
    · exact atOnce_refused ((windowSet_asked hk h2 hr).trans (if_pos (overlapsOther_iff.2 ho)))
    · exact putWindow_ends h2 ((windowSet_asked hk h2 hr).trans (if_neg (mt overlapsOther_iff.1 ho)))
  · have hexec : exec .windowClear s = .next (atOnce windowClear p s) := exec_commanded h fun _ => rfl
    refine ⟨fun hr => ⟨_, hexec, atOnce_refused ?_⟩, fun k hk h2 => ⟨_, hexec, putWindow_ends h2 (windowClear_slot hk h2)⟩⟩
    rw [windowClear, softSlot_none hr]
  · have hexec : exec .descProfileSet s = .next (atOnce descProfileSet p s) := exec_commanded h fun _ => rfl
    refine ⟨fun hr => ⟨_, hexec, atOnce_refused (descProfileSet_refused hr)⟩, fun k d hk hd => ⟨_, hexec, ?_⟩⟩
    have hf := descProfileSet_asked (s := s) hk hd
    have hwin : (atOnce descProfileSet p s).win = _ := atOnce_leaves hf .win (by decide)
    rw [hwin]
    exact ⟨rfl, vput_same _ _ _, fun j hj => vput_ne _ _ _ _ hj, atOnce_ends hf ⟨rfl, rfl, rfl, rfl⟩ rfl (keeps_win _ s)⟩
  · have hexec : exec .statusProfileSet s = .next (atOnce statusProfileSet p s) := exec_commanded h fun _ => rfl
    refine ⟨fun hr => ⟨_, hexec, atOnce_refused (statusProfileSet_refused hr)⟩, fun k d hk hd => ⟨_, hexec, ?_⟩⟩
    have hf := statusProfileSet_asked (s := s) hk hd
    have hwin : (atOnce statusProfileSet p s).win = _ := atOnce_leaves hf .win (by decide)
    rw [hwin]
    exact ⟨rfl, vput_same _ _ _, fun j hj => vput_ne _ _ _ _ hj, atOnce_ends hf ⟨rfl, rfl, rfl, rfl⟩ rfl (keeps_win _ s)⟩

/-! ### SCHEDULE_STAGE, ALLOWANCE_STAGE and SCHEDULE_COMMIT (O53) -/

theorem daysOf_iff {n : Nat} {d : BitVec 7} : daysOf n = some d ↔ n < 128 ∧ d = BitVec.ofNat 7 n := by
  rw [daysOf]
  split
  · next h => simp [h, eq_comm]
  · next h => simp [h]

theorem actionOf_iff {n : Nat} {a : Action} : actionOf n = some a ↔ n = 0 ∧ a = .block ∨ n = 1 ∧ a = .noUrgent ∨ n = 2 ∧ a = .free := by
  match n with
  | 0 | 1 | 2 => simp [actionOf, eq_comm]
  | n + 3 => simp [actionOf]

theorem triggerOf_iff {n : Nat} {b : Bool} : triggerOf n = some b ↔ n = 0 ∧ b = true ∨ n = 1 ∧ b = false := by
  match n with
  | 0 | 1 => simp [triggerOf, eq_comm]
  | n + 2 => simp [triggerOf]

theorem policyOf_iff {n : Nat} {b : Bool} : policyOf n = some b ↔ n = 0 ∧ b = false ∨ n = 1 ∧ b = true := by
  match n with
  | 0 | 1 => simp [policyOf, eq_comm]
  | n + 2 => simp [policyOf]

/-- The window that a SCHEDULE_STAGE with these operands asks for (R44). -/
def StageAsked (days start stop action : Nat) (w : SchedWindow) : Prop :=
  days < 128 ∧ w.days = BitVec.ofNat 7 days ∧ (days = 0 → w.start = 0 ∧ w.stop = 0 ∧ w.action = .block) ∧
    (days ≠ 0 → w.start = start ∧ w.start ≤ 1439 ∧ w.stop = stop ∧ 1 ≤ w.stop ∧ w.stop ≤ 1440 ∧ w.start < w.stop ∧
      (action = 0 ∧ w.action = .block ∨ action = 1 ∧ w.action = .noUrgent ∨ action = 2 ∧ w.action = .free))

theorem stagedWindow_iff {days start stop action : Nat} {w : SchedWindow} :
    stagedWindow days start stop action = some w ↔ StageAsked days start stop action w := by
  obtain ⟨wdays, wstart, wstop, waction⟩ := w
  unfold stagedWindow StageAsked
  cases hd : daysOf days with
  | none =>
    have hn : ¬days < 128 := fun h => absurd ((daysOf_iff.2 ⟨h, rfl⟩).symm.trans hd) nofun
    exact ⟨nofun, fun h => absurd h.1 hn⟩
  | some d =>
    obtain ⟨hlt, rfl⟩ := daysOf_iff.1 hd
    dsimp only
    by_cases h0 : days = 0
    · rw [if_pos h0]
      constructor
      · intro h
        cases h
        exact ⟨hlt, by rw [h0]; rfl, fun _ => ⟨rfl, rfl, rfl⟩, fun h => absurd h0 h⟩
      · rintro ⟨-, rfl, h, -⟩
        obtain ⟨rfl, rfl, rfl⟩ := h h0
        rw [h0]
        rfl
    · rw [if_neg h0, ← actionOf_iff]
      constructor
      · intro h
        split at h
        · cases h
        · next a ha =>
          split at h
          · next hr =>
            cases h
            exact ⟨hlt, rfl, fun h => absurd h h0, fun _ => ⟨rfl, hr.1, rfl, hr.2.1, hr.2.2.1, hr.2.2.2, ha⟩⟩
          · cases h
      · rintro ⟨-, rfl, -, h⟩
        obtain ⟨rfl, h1, rfl, h2, h3, h4, ha⟩ := h h0
        simp only [ha, if_pos (show wstart ≤ 1439 ∧ 1 ≤ wstop ∧ wstop ≤ 1440 ∧ wstart < wstop from ⟨h1, h2, h3, h4⟩)]

section Staging

variable {p : List Byte} {s : State} {k : Fin 16}

theorem commitNames_iff : commitNames s k = true ↔ ∃ m, s.sched.commit = some m ∧ m.getLsbD k.val = true := by
  rw [commitNames, Option.any_eq_true]

theorem commitNames_none (h : ∀ m, s.sched.commit = some m → m.getLsbD k.val = false) : ¬commitNames s k = true := by
  rw [commitNames_iff]
  rintro ⟨m, hm, hk⟩
  exact absurd ((h m hm).symm.trans hk) Bool.false_ne_true

theorem scheduleStage_refused
    (h : 16 ≤ param1 p 0 ∨ 8 ≤ param1 p 1 ∨ ¬∃ w, StageAsked (param1 p 2) (param2 p 3) (param2 p 5) (param1 p 7) w) :
    scheduleStage p s = refuse .refusedRange s := by
  unfold scheduleStage
  split
  · next i j w hi hj hw =>
    exfalso
    obtain h | h | h := h
    · exact absurd ((indexOf_none h).symm.trans hi) nofun
    · exact absurd ((indexOf_none h).symm.trans hj) nofun
    · exact h ⟨w, stagedWindow_iff.1 hw⟩
  · rfl

theorem scheduleStage_asked {j : Fin 8} {w : SchedWindow} (hk : param1 p 0 = k.val) (hj : param1 p 1 = j.val)
    (hw : StageAsked (param1 p 2) (param2 p 3) (param2 p 5) (param1 p 7) w) : scheduleStage p s =
      if commitNames s k then refuse .refusedPending s
      else done (modShadow k (fun prof => { prof with windows := vput prof.windows j w }) s) := by
  simp only [scheduleStage, indexOf_eq hk, indexOf_eq hj, stagedWindow_iff.2 hw]

theorem allowanceStage_refused (h : 16 ≤ param1 p 0 ∨ 1440 < param2 p 1 ∨ 2 ≤ param1 p 3 ∨ 2 ≤ param1 p 4) :
    allowanceStage p s = refuse .refusedRange s := by
  unfold allowanceStage
  split
  · next i trigger policy hi ht hp =>
    obtain h | h | h | h := h
    · exact absurd ((indexOf_none h).symm.trans hi) nofun
    · exact if_neg (Nat.not_le.2 h)
    · have := triggerOf_iff.1 ht
      omega
    · have := policyOf_iff.1 hp
      omega
  · rfl

theorem allowanceStage_asked {trigger closed : Bool} (hk : param1 p 0 = k.val) (ha : param2 p 1 ≤ 1440)
    (ht : param1 p 3 = 0 ∧ trigger = true ∨ param1 p 3 = 1 ∧ trigger = false)
    (hc : param1 p 4 = 0 ∧ closed = false ∨ param1 p 4 = 1 ∧ closed = true) : allowanceStage p s =
      if commitNames s k then refuse .refusedPending s
      else done (modShadow k (fun prof => { prof with allowance := param2 p 1, lineTrigger := trigger, closedUnset := closed }) s) := by
  simp only [allowanceStage, indexOf_eq hk, triggerOf_iff.2 ht, policyOf_iff.2 hc, if_pos ha]

/-- A shadow copy staged: the active copies and the other profiles stand. -/
theorem modShadow_ends {f : List Byte → State → Done} {g : SchedProfile → SchedProfile} (hf : f p s = done (modShadow k g s)) :
    (atOnce f p s).sched = { s.sched with shadow := (atOnce f p s).sched.shadow } ∧
      OtherEntries k s.sched.shadow (atOnce f p s).sched.shadow ∧ (atOnce f p s).sched.shadow[k] = g s.sched.shadow[k] ∧
      EndsWith [.sched] [] .done [] s (atOnce f p s) := by
  have hsched : (atOnce f p s).sched = (modShadow k g s).sched := atOnce_leaves hf .sched (by decide)
  rw [hsched]
  exact ⟨rfl, fun j hj => vmod_ne _ _ _ _ hj, vmod_same _ _ _, atOnce_ends hf ⟨rfl, rfl, rfl, rfl⟩ rfl (keeps_sched _ s)⟩

end Staging

/-- Settles O53: only a shadow copy is written, and not while a commit names it. -/
theorem stagingWritesOnlyShadowCopies : Obligations.StagingWritesOnlyShadowCopies := by
  refine ⟨fun s p h => ?_, fun s p h => ?_, fun s p h => ?_⟩
  · have hexec : exec .scheduleStage s = .next (atOnce scheduleStage p s) := exec_commanded h fun _ => rfl
    refine ⟨fun hr => ⟨_, hexec, atOnce_refused (scheduleStage_refused hr)⟩, fun k j w hk hj hw => ⟨_, hexec, fun hp => ?_, fun hp => ?_⟩⟩
    · exact atOnce_refused ((scheduleStage_asked hk hj hw).trans (if_pos (commitNames_iff.2 hp)))
    · obtain ⟨hsched, hother, hat, hends⟩ := modShadow_ends ((scheduleStage_asked hk hj hw).trans (if_neg (commitNames_none hp)))
      refine ⟨hsched, hother, ?_, ?_, ?_, hends⟩
      all_goals rw [hat]
      · exact vput_same _ _ _
      · exact fun i hi => vput_ne _ _ _ _ hi
  · have hexec : exec .allowanceStage s = .next (atOnce allowanceStage p s) := exec_commanded h fun _ => rfl
    refine ⟨fun hr => ⟨_, hexec, atOnce_refused (allowanceStage_refused hr)⟩,
      fun k trigger closed hk ha ht hc => ⟨_, hexec, fun hp => ?_, fun hp => ?_⟩⟩
    · exact atOnce_refused ((allowanceStage_asked hk ha ht hc).trans (if_pos (commitNames_iff.2 hp)))
    · exact modShadow_ends ((allowanceStage_asked hk ha ht hc).trans (if_neg (commitNames_none hp)))
  · have hexec : exec .scheduleCommit s = .next (atOnce scheduleCommit p s) := exec_commanded h fun _ => rfl
    refine ⟨_, hexec, fun h0 => atOnce_refused (if_pos h0), fun h0 hc => atOnce_refused ((if_neg h0).trans ?_), fun h0 hc => ?_⟩
    · cases hm : s.sched.commit with
      | none => exact absurd hm hc
      | some m => rfl
    · have hf : scheduleCommit p s = ⟨{ s with sched := { s.sched with commit := some (BitVec.ofNat 16 (param2 p 0)) } }, .accepted, []⟩ := by
        rw [scheduleCommit, if_neg h0, hc]
      have hsched : (atOnce scheduleCommit p s).sched = _ := atOnce_leaves hf .sched (by decide)
      exact ⟨hsched, atOnce_ends hf ⟨rfl, rfl, rfl, rfl⟩ rfl (keeps_sched _ s)⟩

/-! ### NODE_SET and ROAM_PROFILE_SET (O55) -/

theorem crossOf_iff {n : Nat} {c : CrossReport} : crossOf n = some c ↔
    n = 0 ∧ c = .none ∨ n = 1 ∧ c = .falling ∨ n = 2 ∧ c = .rising ∨ n = 3 ∧ c = .both := by
  match n with
  | 0 | 1 | 2 | 3 => simp [crossOf, eq_comm]
  | n + 4 => simp [crossOf]

/-- The profile that a ROAM_PROFILE_SET asks for (R113, Table 7.1). -/
def RoamAsked (p : List Byte) (r : RoamProfile) : Prop :=
  r.tWeak = (byteAt p 1).toInt ∧ -95 ≤ r.tWeak ∧ r.tWeak ≤ -40 ∧ r.hys = param1 p 2 ∧ 1 ≤ r.hys ∧ r.hys ≤ 15 ∧
    r.tFloor = (byteAt p 3).toInt ∧ -100 ≤ r.tFloor ∧ r.tFloor ≤ -50 ∧ r.tFloor < r.tWeak ∧
    r.dwell = param1 p 4 ∧ 1 ≤ r.dwell ∧ r.dwell ≤ 63 ∧ r.margin = param1 p 5 ∧ 1 ≤ r.margin ∧ r.margin ≤ 30 ∧
    r.gameMargin = param1 p 6 ∧ r.gameMargin ≤ 20 ∧ r.shift = param1 p 7 ∧ 1 ≤ r.shift ∧ r.shift ≤ 6 ∧
    r.urgentRecent = param1 p 8 ∧ 1 ≤ r.urgentRecent ∧ r.urgentRecent ≤ 60 ∧ r.holdoff = param1 p 9 ∧ 1 ≤ r.holdoff ∧
    r.candidateTimeout = param1 p 10 ∧ 1 ≤ r.candidateTimeout ∧ r.candidateTimeout ≤ 30 ∧
    r.handoffTimeout = param1 p 11 ∧ 1 ≤ r.handoffTimeout ∧ r.handoffTimeout ≤ 30 ∧
    r.peerMaxAge = param1 p 12 ∧ 1 ≤ r.peerMaxAge ∧ r.peerMaxAge ≤ 60 ∧
    (param1 p 13 = 0 ∧ r.cross = .none ∨ param1 p 13 = 1 ∧ r.cross = .falling ∨ param1 p 13 = 2 ∧ r.cross = .rising ∨
      param1 p 13 = 3 ∧ r.cross = .both)

theorem roamProfileAt_iff {p : List Byte} {r : RoamProfile} : roamProfileAt p 1 = some r ↔ RoamAsked p r := by
  have hbyte : param1 p 9 ≤ 255 := Nat.le_of_lt_succ (byteAt p 9).isLt
  obtain ⟨tWeak, hys, tFloor, dwell, margin, gameMargin, shift, urgentRecent, holdoff, candidateTimeout, handoffTimeout, peerMaxAge,
    cross⟩ := r
  rw [RoamAsked, ← crossOf_iff, roamProfileAt]
  constructor
  · intro h
    split at h
    · cases h
    · next c hc =>
      dsimp only at h
      split at h
      · next hr =>
        cases h
        obtain ⟨h1, h2, h3, h4, h5, h6, h7, h8, h9, h10, h11, h12, h13, h14, h15, h16, h17, -, h18, h19, h20, h21, h22, h23⟩ := hr
        exact ⟨rfl, h1, h2, rfl, h3, h4, rfl, h5, h6, h7, rfl, h8, h9, rfl, h10, h11, rfl, h12, rfl, h13, h14, rfl, h15, h16, rfl, h17,
          rfl, h18, h19, rfl, h20, h21, rfl, h22, h23, hc⟩
      · cases h
  · rintro ⟨rfl, h1, h2, rfl, h3, h4, rfl, h5, h6, h7, rfl, h8, h9, rfl, h10, h11, rfl, h12, rfl, h13, h14, rfl, h15, h16, rfl, h17,
      rfl, h18, h19, rfl, h20, h21, rfl, h22, h23, hc⟩
    simp only [hc]
    exact if_pos ⟨h1, h2, h3, h4, h5, h6, h7, h8, h9, h10, h11, h12, h13, h14, h15, h16, h17, hbyte, h18, h19, h20, h21, h22, h23⟩

section Signal

variable {p : List Byte} {s : State}

theorem nodeSet_refused (h : 7 < param1 p 0) : nodeSet p s = refuse .refusedRange s := if_neg (Nat.not_le.2 h)

theorem nodeSet_done (h : param1 p 0 ≤ 7) : nodeSet p s = done (mapStations
    (fun st => if st.peer.any fun q => q.node == param1 p 0 then { st with peer := none } else st)
    { s with sig := { s.sig with node := param1 p 0 } }) := if_pos h

theorem roamProfileSet_refused (h : 4 ≤ param1 p 0 ∨ ¬∃ r, RoamAsked p r) : roamProfileSet p s = refuse .refusedRange s := by
  unfold roamProfileSet
  split
  · next i r hi hr =>
    exfalso
    obtain h4 | hn := h
    · exact absurd ((indexOf_none h4).symm.trans hi) nofun
    · exact hn ⟨r, roamProfileAt_iff.1 hr⟩
  · rfl

theorem roamProfileSet_asked {k : Fin 4} {r : RoamProfile} (hk : param1 p 0 = k.val) (hr : RoamAsked p r) :
    roamProfileSet p s = done { s with sig := { s.sig with profiles := vput s.sig.profiles k r } } := by
  simp only [roamProfileSet, indexOf_eq hk, roamProfileAt_iff.2 hr]

/-! ### HANDOFF_BEGIN and HANDOFF_DECLINE -/

variable {i : Fin 128} {st : Station}

theorem freeSlot_eq {h : HoldUnit} {k : Fin 16} (hk : h.slots[k] = .free) (hlow : ∀ j : Fin 16, j < k → h.slots[j] ≠ .free) :
    freeSlot h = some k :=
  vfind_eq_some (decide_eq_true hk) fun j hj => decide_eq_false (hlow j hj)

theorem freeSlot_none {h : HoldUnit} (hall : ∀ k : Fin 16, h.slots[k] ≠ .free) : freeSlot h = none :=
  vfind_none.2 fun k => decide_eq_false (hall k)

theorem handoffBegin_outOfRange (h : 128 ≤ param1 p 0 ∨ 2 ≤ param1 p 3) : handoffBegin p s = refuse .refusedRange s := by
  unfold handoffBegin
  split
  · next j force hj hf =>
    exfalso
    obtain h | h := h
    · exact absurd ((indexOf_none h).symm.trans hj) nofun
    · exact absurd ((flagOf_none h).symm.trans hf) nofun
  · rfl

theorem handoffBegin_empty (hi : param1 p 0 = i.val) (hf : param1 p 3 ≤ 1) (hst : s.sta.stations[i] = none) :
    handoffBegin p s = refuse .refusedState s := by
  simp only [handoffBegin, indexOf_eq hi, flagOf_iff.2 ⟨hf, rfl⟩, hst]

/-- A HANDOFF_BEGIN that passes the checks of R126 on its parameters. -/
theorem handoffBegin_installed (hi : param1 p 0 = i.val) (hf : param1 p 3 ≤ 1) (hst : s.sta.stations[i] = some st) :
    handoffBegin p s =
      if st.state = .handoff ∨ st.state = .holdoff ∧ param1 p 3 = 0 then refuse .refusedState s
      else (freeSlot s.hold).elim (refuse .refusedFull s) fun k =>
        ⟨modStation i (fun x => { x with
            state := .handoff, deadline := (s.time.secs + (s.sig.profiles[st.roam]).handoffTimeout) % 4294967296, slot := some k })
          (putSlot k (.occupied ⟨i, BitVec.ofNat 16 (param2 p 1), s.time.secs, 0, []⟩) s), .done, u8 k.val⟩ := by
  have hforce : decide (param1 p 3 = 1) = false ↔ param1 p 3 = 0 := by
    rw [decide_eq_false_iff_not]
    omega
  simp only [handoffBegin, indexOf_eq hi, flagOf_iff.2 ⟨hf, rfl⟩, hst, hforce]
  by_cases h1 : st.state = .handoff
  · rw [if_pos h1, if_pos (.inl h1)]
  · rw [if_neg h1]
    by_cases h2 : st.state = .holdoff ∧ param1 p 3 = 0
    · rw [if_pos h2, if_pos (.inr h2)]
    · rw [if_neg h2, if_neg (not_or.2 ⟨h1, h2⟩)]
      cases freeSlot s.hold <;> rfl

theorem handoffDecline_outOfRange (h : 128 ≤ param1 p 0) : handoffDecline p s = refuse .refusedRange s := by
  rw [handoffDecline, indexOf_none h]

theorem handoffDecline_refused (hi : param1 p 0 = i.val) (h : ∀ st, s.sta.stations[i] = some st → st.state ≠ .candidate) :
    handoffDecline p s = refuse .refusedState s := by
  cases hst : s.sta.stations[i] with
  | none => simp only [handoffDecline, indexOf_eq hi, hst]
  | some st => simp only [handoffDecline, indexOf_eq hi, hst, if_neg (h st hst)]

theorem handoffDecline_candidate (hi : param1 p 0 = i.val) (hst : s.sta.stations[i] = some st) (hs : st.state = .candidate) :
    handoffDecline p s = done (modStation i (fun x => { x with
      state := .holdoff, deadline := (s.time.secs + (s.sig.profiles[st.roam]).holdoff) % 4294967296, dwell := 0 }) s) := by
  simp only [handoffDecline, indexOf_eq hi, hst, if_pos hs]
  rfl

end Signal

/-- Settles O55: each command by the first check that fails, or by what it writes. -/
theorem signalCommandsAct : Obligations.SignalCommandsAct := by
  refine ⟨⟨fun s p h => ?_, fun s p h => ?_⟩, fun s p h => ?_, fun s p h => ?_⟩
  · refine ⟨_, exec_commanded h fun _ => rfl, fun hr => atOnce_refused (nodeSet_refused hr), fun hn => ?_⟩
    have hf := nodeSet_done (s := s) hn
    have hsig : (atOnce nodeSet p s).sig = _ := atOnce_leaves hf .sig (by decide)
    have hsta : (atOnce nodeSet p s).sta = _ := atOnce_leaves hf .sta (by decide)
    rw [hsta]
    refine ⟨hsig, rfl, rfl, atOnce_ends hf ⟨rfl, rfl, rfl, rfl⟩ rfl ((keeps_sig _ s).append (keeps_sta _ _)), fun i hst => ?_,
      fun i st hst => ⟨fun ⟨q, hq, hnode⟩ => ?_, fun hq => ?_⟩⟩
    all_goals refine (vmap_at ..).trans ((congrArg _ hst).trans ?_)
    · rfl
    · refine congrArg some (if_pos ?_)
      rw [hq]
      exact beq_iff_eq.2 hnode
    · refine congrArg some (if_neg ?_)
      rw [Option.any_eq_true]
      rintro ⟨q, hq', hnode⟩
      exact hq q hq' (beq_iff_eq.1 hnode)
  · have hexec : exec .roamProfileSet s = .next (atOnce roamProfileSet p s) := exec_commanded h fun _ => rfl
    refine ⟨fun hr => ⟨_, hexec, atOnce_refused (roamProfileSet_refused hr)⟩, fun k r hk hr => ⟨_, hexec, ?_⟩⟩
    have hf := roamProfileSet_asked (s := s) hk hr
    have hsig : (atOnce roamProfileSet p s).sig = _ := atOnce_leaves hf .sig (by decide)
    rw [hsig]
    exact ⟨rfl, vput_same _ _ _, fun j hj => vput_ne _ _ _ _ hj, atOnce_ends hf ⟨rfl, rfl, rfl, rfl⟩ rfl (keeps_sig _ s)⟩
  · have hexec : exec .handoffBegin s = .next (atOnce handoffBegin p s) := exec_commanded h fun _ => rfl
    refine ⟨fun hr => ⟨_, hexec, atOnce_refused (handoffBegin_outOfRange hr)⟩, fun i hi hforce =>
      ⟨fun hst => ⟨_, hexec, atOnce_refused (handoffBegin_empty hi hforce hst)⟩, fun st hst =>
        ⟨_, hexec, fun hb => ?_, fun hb hfull => ?_, fun k hb hk hlow => ?_⟩⟩⟩
    all_goals have hbegin := handoffBegin_installed hi hforce hst
    · exact atOnce_refused (hbegin.trans (if_pos hb))
    · rw [if_neg hb, freeSlot_none hfull] at hbegin
      exact atOnce_refused hbegin
    · rw [if_neg hb, freeSlot_eq hk hlow] at hbegin
      have hsta : (atOnce handoffBegin p s).sta = _ := atOnce_leaves hbegin .sta (by decide)
      have hhold : (atOnce handoffBegin p s).hold = _ := atOnce_leaves hbegin .hold (by decide)
      rw [hsta, hhold]
      refine ⟨?_, fun j hj => ?_, rfl, rfl, rfl, fun j hj => vput_ne _ _ _ _ hj, vput_same _ _ _,
        atOnce_ends hbegin ⟨rfl, rfl, rfl, rfl⟩ rfl
          (((putSlot_frame k _ s).1.append (modStation_keeps i _ _)).mono (by decide))⟩
      · exact (modStation_at ..).trans ((if_pos rfl).trans (congrArg _ hst))
      · rw [hsta]
        exact (modStation_at ..).trans (if_neg hj)
  · have hexec : exec .handoffDecline s = .next (atOnce handoffDecline p s) := exec_commanded h fun _ => rfl
    refine ⟨fun hr => ⟨_, hexec, atOnce_refused (handoffDecline_outOfRange hr)⟩, fun i hi =>
      ⟨fun hst => ⟨_, hexec, atOnce_refused (handoffDecline_refused hi hst)⟩, fun st hst hs => ⟨_, hexec, ?_⟩⟩⟩
    have hf := handoffDecline_candidate hi hst hs
    have hsta : (atOnce handoffDecline p s).sta = _ := atOnce_leaves hf .sta (by decide)
    rw [OthersKept, hsta]
    exact ⟨(modStation_at ..).trans ((if_pos rfl).trans (congrArg _ hst)), fun j hj => (modStation_at ..).trans (if_neg hj), rfl, rfl,
      atOnce_ends hf ⟨rfl, rfl, rfl, rfl⟩ rfl (modStation_keeps i _ s)⟩

end Sys2Proof.Machine

/-! SUPPORT. The image commands and the sweep. -/

namespace Sys2Proof.Machine

open Sys2Proof

/-! ### STAGE_BEGIN, STAGE_CANCEL, STAGE_VERIFY and ACTIVATION_SET (O56) -/

section Image

variable {p : List Byte} {s : State}

theorem stageBegin_range (h : ¬(1 ≤ param4 p 0 ∧ param4 p 0 ≤ 16777216 ∧ param1 p 12 ≤ 1)) : stageBegin p s = refuse .refusedRange s := by
  unfold stageBegin
  dsimp only
  cases hf : flagOf (param1 p 12) with
  | none => rfl
  | some downgrade =>
    have hflag := (flagOf_iff.1 hf).1
    have hout : param4 p 0 < 1 ∨ 16777216 < param4 p 0 := by omega
    exact if_pos hout

theorem stageBegin_inRange (h : 1 ≤ param4 p 0 ∧ param4 p 0 ≤ 16777216 ∧ param1 p 12 ≤ 1) : stageBegin p s =
    if s.img.staging.state = .receiving ∨ s.img.staging.state = .complete ∨ s.img.staging.state = .verifying then refuse .refusedState s
    else if param1 p 12 = 0 ∧ (BitVec.ofNat 32 (param4 p 8)).toNat ≤ (versionInForce s.img).toNat then refuse .refusedRange s
    else done (setStaging { s.img.staging with
      state := .receiving, bank := some s.img.bank.other, length := param4 p 0, expectedCrc := BitVec.ofNat 32 (param4 p 4),
      version := BitVec.ofNat 32 (param4 p 8), chunkCount := (param4 p 0 + 65535) / 65536, chunks := Vector.replicate 256 ⟨.empty, 0⟩,
      sweep := none } s) := by
  obtain ⟨h1, h2, hf⟩ := h
  have hin : ¬(param4 p 0 < 1 ∨ 16777216 < param4 p 0) := by omega
  have hflag : decide (param1 p 12 = 1) = false ↔ param1 p 12 = 0 := by
    rw [decide_eq_false_iff_not]
    omega
  have hdown : (decide (param1 p 12 = 1) = false ∧ BitVec.ofNat 32 (param4 p 8) ≤ versionInForce s.img) =
      (param1 p 12 = 0 ∧ (BitVec.ofNat 32 (param4 p 8)).toNat ≤ (versionInForce s.img).toNat) :=
    propext (and_congr hflag Iff.rfl)
  simp only [stageBegin, flagOf_iff.2 ⟨hf, rfl⟩, hdown]
  exact if_neg hin

/-- STAGE_BEGIN by the first check of R148 that fails, given the version in force and the other bank. -/
theorem stageBegin_spec {inForce : Word} {other : Bank} (hin : inForce = versionInForce s.img) (hother : other = s.img.bank.other) :
    let t := atOnce stageBegin p s
    let g := s.img.staging
    let range := 1 ≤ param4 p 0 ∧ param4 p 0 ≤ 16777216 ∧ param1 p 12 ≤ 1
    let busy := g.state = .receiving ∨ g.state = .complete ∨ g.state = .verifying
    let older := param1 p 12 = 0 ∧ (BitVec.ofNat 32 (param4 p 8)).toNat ≤ inForce.toNat
    (¬range → TurnedAway .refusedRange s t) ∧ (range → busy → TurnedAway .refusedState s t) ∧
      (range → ¬busy → older → TurnedAway .refusedRange s t) ∧
      (range → ¬busy → ¬older →
        EndsWith [.img] [] .done [] s t ∧ t.img = { s.img with staging := t.img.staging } ∧
        t.img.staging = { g with
          state := .receiving, bank := some other, length := param4 p 0, expectedCrc := BitVec.ofNat 32 (param4 p 4),
          version := BitVec.ofNat 32 (param4 p 8), chunkCount := (param4 p 0 + 65535) / 65536,
          chunks := Vector.replicate 256 ⟨.empty, 0⟩, sweep := none }) := by
  subst hin hother
  refine ⟨fun hr => atOnce_refused (stageBegin_range hr), fun hr hb => atOnce_refused ((stageBegin_inRange hr).trans (if_pos hb)),
    fun hr hb ho => atOnce_refused ((stageBegin_inRange hr).trans ((if_neg hb).trans (if_pos ho))), fun hr hb ho => ?_⟩
  have hf := (stageBegin_inRange (s := s) hr).trans ((if_neg hb).trans (if_neg ho))
  have himg : (atOnce stageBegin p s).img = _ := atOnce_leaves hf .img (by decide)
  rw [himg]
  exact ⟨atOnce_ends hf ⟨rfl, rfl, rfl, rfl⟩ rfl (keeps_img _ s), rfl, rfl⟩

/-- The staging context when its sweep, if it has one, has ended. -/
theorem endSweep_stale (s : State) : ∃ stale, endSweep s = { s with
      img := { s.img with staging := { s.img.staging with sweep := none, stale := stale } }
      path := { s.path with sweepWait := 0 } } ∧
    (∀ v tag, s.img.staging.sweep = some v → v.step = .reading tag → stale = s.img.staging.stale ++ [tag]) ∧
    ((∀ v tag, s.img.staging.sweep = some v → v.step ≠ .reading tag) → stale = s.img.staging.stale) := by
  refine ⟨_, rfl, fun v tag hv ht => ?_, fun h => ?_⟩
  · obtain ⟨_, _, _, _, _, step⟩ := v
    rw [hv]
    cases ht
    rfl
  · cases hv : s.img.staging.sweep with
    | none => rfl
    | some v =>
      obtain ⟨_, _, _, _, _, step⟩ := v
      cases step with
      | awaiting => rfl
      | waiting => rfl
      | reading tag => exact absurd rfl (h _ tag hv)

theorem stageCancel_spec :
    let t := atOnce stageCancel p s
    (s.img.staging.state = .idle → TurnedAway .refusedState s t) ∧
      (s.img.staging.state ≠ .idle →
        EndsWith [.img] [] .done [] { s with path := { s.path with sweepWait := 0 } } t ∧
        t.img = { s.img with staging := t.img.staging } ∧
        t.img.staging = { s.img.staging with
          state := .idle, bank := none, chunks := Vector.replicate 256 ⟨.empty, 0⟩, sweep := none, stale := t.img.staging.stale } ∧
        (∀ v tag, s.img.staging.sweep = some v → v.step = .reading tag → t.img.staging.stale = s.img.staging.stale ++ [tag]) ∧
        ((∀ v tag, s.img.staging.sweep = some v → v.step ≠ .reading tag) → t.img.staging.stale = s.img.staging.stale)) := by
  refine ⟨fun hi => atOnce_refused (if_pos hi), fun hi => ?_⟩
  obtain ⟨stale, heq, hreading, hother⟩ := endSweep_stale s
  have hf : stageCancel p s = _ := if_neg hi
  rw [heq] at hf
  have himg : (atOnce stageCancel p s).img = _ := atOnce_leaves hf .img (by decide)
  rw [himg, atOnce_eq hf]
  exact ⟨EndsWith.intro [] .done [] ⟨rfl, rfl, rfl, rfl⟩ rfl (keeps_img _ _), rfl, rfl, hreading, hother⟩

theorem mem_stagingUnanswered {bank : Bank} {ws : List WriteTx} {tag : Nat} : tag ∈ (ws.filter (stagingUnanswered bank)).map WriteTx.tag ↔
    ∃ w ∈ ws, w.tag = tag ∧ bank.base ≤ w.txn.addr.toNat ∧ w.txn.addr.toNat < bank.base + 0x1000000 ∧
      (w.stage = .ready ∨ w.stage = .issued) := by
  have hw (w : WriteTx) : stagingUnanswered bank w = true ↔
      (bank.base ≤ w.txn.addr.toNat ∧ w.txn.addr.toNat < bank.base + 0x1000000) ∧ (w.stage = .ready ∨ w.stage = .issued) := by
    rw [stagingUnanswered, Bool.and_eq_true, inRange_iff, Bool.or_eq_true, decide_eq_true_iff, decide_eq_true_iff]
    rfl
  rw [List.mem_map]
  constructor
  · rintro ⟨w, hmem, htag⟩
    obtain ⟨hin, hun⟩ := List.mem_filter.1 hmem
    obtain ⟨⟨hlo, hhi⟩, hst⟩ := (hw w).1 hun
    exact ⟨w, hin, htag, hlo, hhi, hst⟩
  · rintro ⟨w, hin, htag, hlo, hhi, hst⟩
    exact ⟨w, List.mem_filter.2 ⟨hin, (hw w).2 ⟨⟨hlo, hhi⟩, hst⟩⟩, htag⟩

theorem stageVerify_range (h : ¬(2 ≤ param1 p 0 ∧ param1 p 0 ≤ 64 ∧ param1 p 1 ≤ 1)) : stageVerify p s = refuse .refusedRange s := by
  unfold stageVerify
  cases hf : flagOf (param1 p 1) with
  | none => rfl
  | some yields =>
    have hflag := (flagOf_iff.1 hf).1
    have hout : param1 p 0 < 2 ∨ 64 < param1 p 0 := by omega
    exact if_pos hout

theorem stageVerify_notReady (h : 2 ≤ param1 p 0 ∧ param1 p 0 ≤ 64 ∧ param1 p 1 ≤ 1)
    (hready : ¬(s.img.staging.state = .complete ∨ s.img.staging.state = .corrupt)) : stageVerify p s = refuse .refusedState s := by
  obtain ⟨h2, h64, hf⟩ := h
  have hin : ¬(param1 p 0 < 2 ∨ 64 < param1 p 0) := by omega
  simp only [stageVerify, flagOf_iff.2 ⟨hf, rfl⟩, if_neg hin, if_neg hready]

/-- The sweep that STAGE_VERIFY begins: at offset 0, to wait for the staging writes received and not yet answered. -/
def newSweep (p : List Byte) (bank : Bank) (s : State) : Sweep :=
  { share := param1 p 0, yields := decide (param1 p 1 = 1), offset := 0, crc := crcStart,
    writes := (s.path.writes.filter (stagingUnanswered bank)).map WriteTx.tag, step := .awaiting }

theorem stageVerify_ready {bank : Bank} (hbank : s.img.staging.bank = some bank) (h : 2 ≤ param1 p 0 ∧ param1 p 0 ≤ 64 ∧ param1 p 1 ≤ 1)
    (hready : s.img.staging.state = .complete ∨ s.img.staging.state = .corrupt) :
    stageVerify p s = ⟨setStaging { s.img.staging with state := .verifying, sweep := some (newSweep p bank s) } s, .accepted, []⟩ := by
  obtain ⟨h2, h64, hf⟩ := h
  have hin : ¬(param1 p 0 < 2 ∨ 64 < param1 p 0) := by omega
  simp only [stageVerify, flagOf_iff.2 ⟨hf, rfl⟩, if_neg hin, if_pos hready, hbank, newSweep]

theorem activationSet_disables (h : param1 p 0 = 1) :
    activationSet p s = done { s with img := { s.img with window := { s.img.window with enabled := false } } } := by
  have hf : flagOf (param1 p 0) = some true := flagOf_iff.2 ⟨h.le, by rw [h]; rfl⟩
  simp only [activationSet, hf]

/-- The parameters of an enabled activation window are in their ranges (R154). -/
def ActivationAsked (p : List Byte) : Prop :=
  param1 p 1 < 128 ∧ param2 p 2 ≤ 1439 ∧ 1 ≤ param2 p 4 ∧ param2 p 4 ≤ 1440 ∧ param2 p 2 < param2 p 4 ∧ 10 ≤ param2 p 6 ∧ param2 p 6 ≤ 600

theorem activationSet_enables (h0 : param1 p 0 = 0) (h : ActivationAsked p) :
    activationSet p s = done
      { s with img := { s.img with window := ⟨true, BitVec.ofNat 7 (param1 p 1), param2 p 2, param2 p 4, param2 p 6⟩ } } := by
  obtain ⟨hdays, hrange⟩ := h
  have hf : flagOf (param1 p 0) = some false := flagOf_iff.2 ⟨by omega, by rw [h0]; rfl⟩
  simp only [activationSet, hf, daysOf_iff.2 ⟨hdays, rfl⟩, if_pos hrange]

theorem activationSet_refused (h : 1 < param1 p 0 ∨ (param1 p 0 = 0 ∧ ¬ActivationAsked p)) : activationSet p s = refuse .refusedRange s := by
  unfold activationSet
  cases hf : flagOf (param1 p 0) with
  | none => rfl
  | some disable =>
    obtain ⟨hle, rfl⟩ := flagOf_iff.1 hf
    obtain ⟨h0, hno⟩ := h.resolve_left (by omega)
    rw [h0]
    cases hd : daysOf (param1 p 1) with
    | none => rfl
    | some days => exact if_neg fun hin => hno ⟨(daysOf_iff.1 hd).1, hin⟩

/-- Settles O56: the checks of each command in order, and the staging context or the activation window it writes. -/
theorem imageCommandsAct : Obligations.ImageCommandsAct := by
  refine ⟨⟨fun s p h => ⟨_, exec_commanded h fun _ => rfl, stageBegin_spec ?_ ?_⟩,
      fun s p h => ⟨_, exec_commanded h fun _ => rfl, stageCancel_spec⟩⟩,
    fun s p bank h hbank => ⟨_, exec_commanded h fun _ => rfl, fun hr => atOnce_refused (stageVerify_range hr),
      fun hr hn => atOnce_refused (stageVerify_notReady hr hn), fun hr hy => ?_⟩,
    fun s p h hidle h2 h64 hf => ⟨_, exec_commanded h fun _ => rfl, atOnce_refused (stageVerify_notReady ⟨h2, h64, hf⟩ ?_)⟩,
    fun s p h => ⟨_, exec_commanded h fun _ => rfl, fun hr => atOnce_refused (activationSet_refused hr), fun h1 => ?_, fun h0 ha => ?_⟩⟩
  · unfold versionInForce
    cases s.img.record <;> cases s.img.bank <;> rfl
  · cases s.img.bank <;> rfl
  · have hf := stageVerify_ready (s := s) hbank hr hy
    exact ⟨atOnce_ends hf ⟨rfl, rfl, rfl, rfl⟩ rfl (keeps_img _ s),
      newSweep p bank s, atOnce_leaves hf .img (by decide), rfl, rfl, rfl, rfl, rfl, fun tag => mem_stagingUnanswered⟩
  · rw [hidle]
    decide
  · have hf := activationSet_disables (s := s) h1
    exact ⟨atOnce_leaves hf .img (by decide), atOnce_ends hf ⟨rfl, rfl, rfl, rfl⟩ rfl (keeps_img _ s)⟩
  · have hf := activationSet_enables (s := s) h0 ha
    exact ⟨atOnce_leaves hf .img (by decide), atOnce_ends hf ⟨rfl, rfl, rfl, rfl⟩ rfl (keeps_img _ s)⟩

end Image

/-! ### SWEEP_START and SWEEP_READ_RETURN (O39) -/

section Sweep

variable {s : State} {v : Sweep}

theorem writesAnswered_iff {p : PathUnit} {tags : List Nat} :
    writesAnswered p tags = true ↔ ∀ w ∈ p.writes, w.tag ∈ tags → w.stage ≠ .ready ∧ w.stage ≠ .issued := by
  rw [writesAnswered, List.all_eq_true]
  refine forall₂_congr fun w _ => ?_
  simp [imp_iff_not_or]

theorem sweepStart_requests (hv : s.img.staging.sweep = some v) (hstep : v.step = .awaiting)
    (hw : ∀ w ∈ s.path.writes, w.tag ∈ v.writes → w.stage ≠ .ready ∧ w.stage ≠ .issued) :
    sweepStart s = setSweep { v with step := .waiting } s := by
  simp only [sweepStart, hv]
  exact if_pos ⟨hstep, writesAnswered_iff.2 hw⟩

theorem sweepReadReturn_discards {tag : Nat} {resps : List Resp} {data : List Byte} (h : tag ∈ s.img.staging.stale) :
    sweepReadReturn tag resps data s =
      setStaging { s.img.staging with stale := s.img.staging.stale.filter fun t => t != tag } s :=
  if_pos (List.contains_iff_mem.2 h)

theorem sweepReadReturn_current {tag : Nat} {resps : List Resp} {data : List Byte} (h : tag ∉ s.img.staging.stale)
    (hv : s.img.staging.sweep = some v) (hstep : v.step = .reading tag) :
    sweepReadReturn tag resps data s = sweepData v resps data s := by
  have hno : ¬(s.img.staging.stale.contains tag) = true := mt List.contains_iff_mem.1 h
  simp only [sweepReadReturn, if_neg hno, hv, if_pos hstep]

/-- What the end of a sweep leaves: its result reported, W 0, no sweep, and the state given. -/
theorem finishSweep_ends {u : State} {result : VerifyResult} {state : StagingState} {crc : Word} {offset : Nat} (hu : KeepsAllBut [.img] s u)
    (hg : u.img.staging = s.img.staging) :
    let t := finishSweep result state crc offset u
    (Reports [.path, .img] [.verifyResult result crc s.img.staging.expectedCrc s.img.staging.version offset 0] s t ∧
      t.path = { s.path with sweepWait := 0 } ∧ t.img.staging.sweep = none) ∧ t.img.staging.state = state ∧ t.img.dueSent = u.img.dueSent := by
  let w := setStaging { u.img.staging with state := state, sweep := none } { u with path := { u.path with sweepWait := 0 } }
  have hw : KeepsAllBut [.path, .img] u w := (keeps_path _ u).append (keeps_img _ _)
  have hsw : KeepsAllBut [.path, .img] s w := (hu.append hw).mono (by decide)
  have hwin : w.win = s.win := hsw .win (by decide)
  have htime : w.time = s.time := hsw .time (by decide)
  have hsame : SameReporting s w :=
    ⟨hsw .cmd (by decide), hsw .own (by decide), by rw [State.control, hwin]; rfl, by rw [State.now, htime]; rfl⟩
  have hkeep := offer_keeps (.verifyResult result crc s.img.staging.expectedCrc s.img.staging.version offset 0) w
  have hpath := hkeep .path (by decide)
  have himg := hkeep .img (by decide)
  have ht : finishSweep result state crc offset u = offer (.verifyResult result crc s.img.staging.expectedCrc s.img.staging.version offset 0) w := by
    rw [← hg]
    rfl
  dsimp only
  rw [ht, himg, hpath]
  exact ⟨⟨Reports.intro [_] hsame hsw, congrArg (fun x : PathUnit => { x with sweepWait := 0 }) (hu .path (by decide)), rfl⟩, rfl, rfl⟩

theorem all_okay_iff {resps : List Resp} : (resps.all fun r => r == .okay) = true ↔ ∀ r ∈ resps, r = .okay := by
  simp

theorem sweepData_fails {resps : List Resp} {data : List Byte} (h : ∃ r ∈ resps, r ≠ .okay) :
    sweepData v resps data s = finishSweep .readError .corrupt (crcResult v.crc) v.offset s := by
  refine if_neg fun hall => ?_
  obtain ⟨r, hr, hbad⟩ := h
  exact hbad (all_okay_iff.1 hall r hr)

/-- The register after the bytes of a read of the sweep, of the last one only those below the length (R152). -/
def sweepCrc (g : Staging) (v : Sweep) (data : List Byte) : Word := (data.take (g.length - v.offset)).foldl crcByte v.crc

theorem sweepData_okay {resps : List Resp} {data : List Byte} (h : ∀ r ∈ resps, r = .okay) (hlen : data.length = 128) :
    sweepData v resps data s =
      if s.img.staging.length ≤ v.offset + 128 then
        if ~~~(sweepCrc s.img.staging v data) = s.img.staging.expectedCrc then
          finishSweep .verified .verified (~~~(sweepCrc s.img.staging v data)) (v.offset + 128) { s with img := { s.img with dueSent := false } }
        else finishSweep .mismatch .corrupt (~~~(sweepCrc s.img.staging v data)) (v.offset + 128) s
      else setSweep { v with crc := sweepCrc s.img.staging v data, offset := v.offset + 128, step := .waiting } s := by
  have hcrc : crcBytes v.crc ((data.take Config.sweepRead).take (s.img.staging.length - v.offset)) = sweepCrc s.img.staging v data := by
    rw [List.take_of_length_le (l := data) (i := Config.sweepRead) hlen.le]
    rfl
  simp only [sweepData, if_pos (all_okay_iff.2 h), hcrc]
  rfl

end Sweep

/-- Settles O39: the first read is requested once the staging writes are answered, and a returned read is discarded, goes on or ends the
sweep. -/
theorem sweepVerifiesExactlyTheLength : Obligations.SweepVerifiesExactlyTheLength := by
  refine ⟨fun s v hv hstep hw => ⟨_, congrArg Host.Outcome.next (sweepStart_requests hv hstep hw), rfl, rfl, keeps_img _ s⟩,
    fun s tag resps data h => ⟨_, congrArg Host.Outcome.next (sweepReadReturn_discards h), fun hmem => ?_, rfl, keeps_img _ s⟩,
    fun s tag resps data v htag hv hstep hlen =>
      ⟨_, congrArg Host.Outcome.next (sweepReadReturn_current htag hv hstep), fun hok hmore => ?_, fun hok hlast hcrc => ?_,
        fun hok hlast hcrc => ?_, fun hbad => ?_⟩⟩
  · obtain ⟨-, hne⟩ := List.mem_filter.1 hmem
    exact absurd hne (by simp)
  · rw [sweepData_okay hok hlen, if_neg (by omega)]
    exact ⟨rfl, keeps_img _ s⟩
  · rw [(sweepData_okay hok hlen).trans ((if_pos hlast).trans (if_pos hcrc))]
    exact finishSweep_ends (keeps_img _ s) rfl
  · rw [(sweepData_okay hok hlen).trans ((if_pos hlast).trans (if_neg hcrc))]
    exact finishSweep_ends (KeepsAllBut.refl _ s) rfl
  · rw [sweepData_fails hbad]
    exact finishSweep_ends (KeepsAllBut.refl _ s) rfl

end Sys2Proof.Machine

/-! SUPPORT. The Schedule Unit: the clock, the line and the minute boundary. -/

namespace Sys2Proof.Machine

open Sys2Proof

/-! ### TIME_SET (O44) -/

theorem vmap_vmap {α β γ : Type} {n : Nat} (f : β → γ) (g : α → β) (v : Vector α n) : vmap f (vmap g v) = vmap (f ∘ g) v := by
  simp [vmap]

/-- A station as TIME_SET leaves it before the window evaluation (R42, R54). -/
def restarted (newDay : Bool) (st : Station) : Station :=
  if newDay then rollStation { st with active := false } else { st with active := false }

/-- The Station Table as TIME_SET leaves it, the clock being set (R42). -/
def dayStarted (newDay : Bool) (s : State) : State :=
  mapStations (fun st => evaluate s.sched.clock s.sched.active (restarted newDay st))
    { s with sta := { s.sta with carry := if newDay then [] else s.sta.carry } }

theorem evaluateAll_restarted (newDay : Bool) (s : State) :
    evaluateAll (if newDay then rollover (mapStations (fun st => { st with active := false }) s)
      else mapStations (fun st => { st with active := false }) s) = dayStarted newDay s := by
  cases newDay
  case' false => rw [if_neg Bool.false_ne_true]
  case' true => rw [if_pos rfl]
  all_goals
    simp only [evaluateAll, rollover, dayStarted, mapStations, vmap_vmap, Option.map_comp_map]
    rfl

/-- A clock that was UNSET, or a new day (R42). -/
def startsDay (old new : Clock) : Bool := !old.isSet || old.day != new.day

section TimeSet

variable {p : List Byte} {s : State}

theorem timeSet_range (h : 10079 < param2 p 0 ∨ 59 < param1 p 2) : timeSet p s = refuse .refusedRange s := by
  have hout : ¬(param2 p 0 ≤ 10079 ∧ param1 p 2 ≤ 59) := by omega
  exact if_neg hout

/-- The state as TIME_SET leaves it before its reports (R42). -/
def timeWritten (clock : Clock) (s : State) : State :=
  dayStarted (startsDay s.sched.clock clock) { s with sched := { s.sched with clock := clock, minuteDue := false } }

theorem timeSet_asked (hm : param2 p 0 ≤ 10079) (hs : param1 p 2 ≤ 59) :
    timeSet p s = done (reportGates .timeSet s.sta.stations (timeWritten ⟨param2 p 0, param1 p 2, 0, true⟩ s)) := by
  have hin : param2 p 0 ≤ 10079 ∧ param1 p 2 ≤ 59 := ⟨hm, hs⟩
  exact (if_pos hin).trans (congrArg (fun u => done (reportGates .timeSet s.sta.stations u)) (evaluateAll_restarted ..))

/-- What the start of a day, or its absence, makes of a station's usage. -/
theorem evaluate_restarted (clock : Clock) (active : Vector SchedProfile 16) (newDay : Bool) (st : Station) :
    let u := evaluate clock active (restarted newDay st)
    u = { st with
      used := u.used, extra := u.extra, active := false, lowSent := u.lowSent, noUrgent := u.noUrgent, free := u.free,
      reasons := ⟨u.reasons.window, u.reasons.allowance, st.reasons.line, st.reasons.host⟩ } ∧
    (newDay = true → u.used = 0 ∧ u.extra = 0 ∧ u.reasons.allowance = false ∧ u.lowSent = false) ∧
    (newDay = false →
      u.used = st.used ∧ u.extra = st.extra ∧ u.reasons.allowance = st.reasons.allowance ∧ u.lowSent = st.lowSent) := by
  obtain ⟨window, noUrgent, free, h⟩ := evaluate_frame clock active (restarted newDay st)
  dsimp only
  rw [h]
  cases newDay
  · exact ⟨rfl, nofun, fun _ => ⟨rfl, rfl, rfl, rfl⟩⟩
  · exact ⟨rfl, fun _ => ⟨rfl, rfl, rfl, rfl⟩, nofun⟩

theorem atOnce_timeSet (hm : param2 p 0 ≤ 10079) (hs : param1 p 2 ≤ 59) :
    let t := atOnce timeSet p s
    let w := timeWritten ⟨param2 p 0, param1 p 2, 0, true⟩ s
    t.sched = w.sched ∧ t.sta = w.sta ∧ EndsWith [.sched, .sta] (gateReports .timeSet s.sta.stations w.sta.stations) .done [] s t := by
  have hf := timeSet_asked (s := s) hm hs
  rw [reportGates_eq] at hf
  have hkeep := atOnce_leaves hf
  have hoff := offerAll_keeps (gateReports .timeSet s.sta.stations (timeWritten ⟨param2 p 0, param1 p 2, 0, true⟩ s).sta.stations)
    (timeWritten ⟨param2 p 0, param1 p 2, 0, true⟩ s)
  refine ⟨(hkeep .sched (by decide)).trans (hoff .sched (by decide)), (hkeep .sta (by decide)).trans (hoff .sta (by decide)), ?_⟩
  rw [atOnce_eq hf]
  exact EndsWith.intro _ .done [] ⟨rfl, rfl, rfl, rfl⟩ rfl
    ((((keeps_sched _ s).append (keeps_sta _ _)).append (mapStations_keeps _ _)).mono (by decide))

theorem startsDay_iff {old new : Clock} : startsDay old new = true ↔ old.isSet = false ∨ old.minute / 1440 ≠ new.minute / 1440 := by
  rw [startsDay, Bool.or_eq_true, Bool.not_eq_true', bne_iff_ne]
  rfl

end TimeSet

/-- Settles O44: the stations are restarted and evaluated in one pass, and a new day is what `startsDay` decides. -/
theorem timeSetStartsADayOnlyAcrossDays : Obligations.TimeSetStartsADayOnlyAcrossDays := by
  intro s p h
  have hexec : exec .timeSet s = .next (atOnce timeSet p s) := exec_commanded h fun _ => rfl
  refine ⟨fun hr => ⟨_, hexec, atOnce_refused (timeSet_range hr)⟩, fun hm hs => ⟨_, hexec, ?_⟩⟩
  obtain ⟨hsched, hsta, hends⟩ := atOnce_timeSet (s := s) hm hs
  have hday := startsDay_iff (old := s.sched.clock) (new := ⟨param2 p 0, param1 p 2, 0, true⟩)
  rw [hsta, hsched]
  unfold timeWritten at hends ⊢
  generalize startsDay s.sched.clock ⟨param2 p 0, param1 p 2, 0, true⟩ = newDay at hday hends ⊢
  refine ⟨hends, rfl, rfl, fun hn => if_pos (hday.2 hn), fun hn => if_neg (mt hday.1 hn), fun i hi => ?_, fun i st hi => ?_⟩
  · exact (mapStations_at ..).trans (congrArg (Option.map _) hi)
  · obtain ⟨hframe, hnew, hold⟩ := evaluate_restarted ⟨param2 p 0, param1 p 2, 0, true⟩ s.sched.active newDay st
    exact ⟨_, (mapStations_at ..).trans (congrArg (Option.map _) hi), evaluate_spec .., hframe, fun hn => hnew (hday.2 hn),
      fun hn => hold (Bool.eq_false_iff.2 (mt hday.1 hn))⟩

/-! ### LINE_EDGE (O45) -/

theorem eq_of_sameAt {s t : State} (h : ∀ b, State.sameAt b s t) : t = s := by
  cases s
  cases t
  simp only [State.mk.injEq]
  exact ⟨h .pending, h .pins, h .boot, h .path, h .own, h .win, h .capture, h .sta, h .time, h .sched, h .cls, h .adm, h .rew, h .sig, h .hold,
    h .img, h .cmd, h .ports, h .free⟩

/-- A report does not depend on the Schedule Unit, and leaves it as it is. -/
theorem offer_setSched (r : Report) (x : Schedule) (s : State) : offer r { s with sched := x } = { offer r s with sched := x } := by
  have hp : SameReporting (offer r s) (offer r { s with sched := x }) := offer_parts r ⟨rfl, rfl, rfl, rfl⟩
  refine eq_of_sameAt fun b => ?_
  cases b
  case cmd => exact hp.cmd
  case own => exact hp.own
  all_goals simp [State.sameAt]

/-- The line with its filtered level taken over from the sampled one (R61). -/
def Line.filtered (l : Line) : Line := { l with level := !l.level, run := 0 }

/-- The filtered level taken. -/
def levelTaken (s : State) : State := { s with sched := { s.sched with line := s.sched.line.filtered } }

theorem Line.asserted_iff {l : Line} : l.asserted = true ↔ l.level = l.assertedHigh := beq_iff_eq

section LineEdge

variable {s : State}

theorem lineEdge_off (hrun : s.sched.line.run = 32) (hmode : s.sched.line.mode = .off) : lineEdge s = levelTaken s := by
  refine (if_pos hrun).trans ?_
  split
  · rfl
  · next h => exact absurd (hmode.symm.trans h) nofun
  · next h => exact absurd (hmode.symm.trans h) nofun

theorem lineEdge_pause (hrun : s.sched.line.run = 32) (hmode : s.sched.line.mode = .pause) :
    lineEdge s = if s.sched.line.filtered.asserted then pauseEdge true (levelTaken s)
      else if s.sched.line.follow then pauseEdge false (levelTaken s) else offer (.lineEvent .released 0) (levelTaken s) := by
  refine (if_pos hrun).trans ?_
  split
  · next h => exact absurd (hmode.symm.trans h) nofun
  · rfl
  · next h => exact absurd (hmode.symm.trans h) nofun

theorem lineEdge_sync (hrun : s.sched.line.run = 32) (hmode : s.sched.line.mode = .sync) :
    lineEdge s = if s.sched.line.filtered.asserted then syncEdge (levelTaken s) else levelTaken s := by
  refine (if_pos hrun).trans ?_
  split
  · next h => exact absurd (hmode.symm.trans h) nofun
  · next h => exact absurd (hmode.symm.trans h) nofun
  · rfl

/-- What an edge under PAUSE does to the state in which it is taken (R62). -/
theorem pauseEdge_spec (v : Bool) (u : State) :
    let t := pauseEdge v u
    t.sched = u.sched ∧ t.sta = (mapStations (withLine u.sched.active v) u).sta ∧
    t = offerAll (.lineEvent (if v then .asserted else .released) (lineChanges u.sched.active v u.sta.stations) ::
      gateReports .line u.sta.stations t.sta.stations) (mapStations (withLine u.sched.active v) u) := by
  have hkeep : KeepsAllBut reportParts (mapStations (withLine u.sched.active v) u) (pauseEdge v u) :=
    ((offer_keeps _ _).append (offerAll_keeps _ _)).mono (by decide)
  refine ⟨hkeep .sched (by decide), hkeep .sta (by decide), ?_⟩
  rw [hkeep .sta (by decide), pauseEdge, reportGates_eq]
  rw [offer_keeps _ _ .sta (by decide)]
  rfl

/-- An edge under PAUSE, given which stations it affects. -/
theorem pauseEdge_asStated {affected : Station → Bool} (haff : ∀ st, affected st = lineAffects s.sched.active st) (v : Bool) :
    let t := pauseEdge v (levelTaken s)
    t.sched = (levelTaken s).sched ∧
    Reports [.sched, .sta]
      (.lineEvent (if v then .asserted else .released)
          (s.sta.stations.toList.countP fun o => o.any fun st => affected st && st.reasons.line != v) ::
        gateReports .line s.sta.stations t.sta.stations) s t ∧
    t.sta.unknown = s.sta.unknown ∧ t.sta.carry = s.sta.carry ∧
    (∀ i : Fin 128, s.sta.stations[i] = none → t.sta.stations[i] = none) ∧
    ∀ (i : Fin 128) (st : Station), s.sta.stations[i] = some st →
      t.sta.stations[i] = some (if affected st = true then { st with reasons := { st.reasons with line := v } } else st) := by
  obtain rfl : affected = lineAffects s.sched.active := funext haff
  obtain ⟨hsched, hsta, heq⟩ := pauseEdge_spec v (levelTaken s)
  have hat (i : Fin 128) : (pauseEdge v (levelTaken s)).sta.stations[i] = (s.sta.stations[i]).map (withLine s.sched.active v) := by
    rw [hsta]
    exact mapStations_at ..
  refine ⟨hsched, ?_, by rw [hsta]; rfl, by rw [hsta]; rfl, fun i hi => (hat i).trans (congrArg _ hi), fun i st hi => (hat i).trans (congrArg _ hi)⟩
  rw [hsta] at heq ⊢
  rw [heq]
  exact Reports.intro _ ⟨rfl, rfl, rfl, rfl⟩ ((keeps_sched _ s).append (mapStations_keeps _ _))

theorem syncEdge_back (h : s.sched.clock.second < 30) :
    let t := syncEdge (levelTaken s)
    t.sched = { s.sched with line := s.sched.line.filtered, clock := { s.sched.clock with second := 0, presc := 0 } } ∧
      Reports [.sched] [.lineEvent .syncBack s.sched.clock.second] s t := by
  have hno : ¬30 ≤ s.sched.clock.second := by omega
  have heq : syncEdge (levelTaken s) = offer (.lineEvent .syncBack s.sched.clock.second)
    (setClock { s.sched.clock with presc := 0, second := 0 } (levelTaken s)) := if_neg hno
  dsimp only
  rw [heq]
  exact ⟨offer_keeps _ _ .sched (by decide), Reports.intro [_] ⟨rfl, rfl, rfl, rfl⟩ (keeps_sched _ s)⟩

/-- The forward edge takes the minute boundary as the event MINUTE_BOUNDARY would (R63). -/
theorem syncEdge_forward (h : 30 ≤ s.sched.clock.second) (hpor : s.pins.por = false) (hrst : s.pins.rst = false) :
    syncEdge (levelTaken s) = minuteBoundary { offer (.lineEvent .syncForward s.sched.clock.second) s with
      sched := { s.sched with line := s.sched.line.filtered, clock := { s.sched.clock with presc := 0 }, minuteDue := true } } := by
  have hpins := offer_keeps (.lineEvent .syncForward s.sched.clock.second) s .pins (by decide)
  have heq : syncEdge (levelTaken s) = takeBoundary (setClock { s.sched.clock with presc := 0 }
    (offer (.lineEvent .syncForward s.sched.clock.second) (levelTaken s))) := if_pos h
  rw [heq, levelTaken, offer_setSched]
  refine ((if_pos rfl).trans (if_neg ?_)).symm
  rw [show (offer (.lineEvent .syncForward s.sched.clock.second) s).pins = s.pins from hpins, hpor, hrst]
  decide

end LineEdge

/-! ### LINE_SET (O45) -/

theorem lineModeOf_iff {n : Nat} {m : LineMode} : lineModeOf n = some m ↔ n = 0 ∧ m = .off ∨ n = 1 ∧ m = .pause ∨ n = 2 ∧ m = .sync := by
  match n with
  | 0 | 1 | 2 => simp [lineModeOf, eq_comm]
  | n + 3 => simp [lineModeOf]

theorem polarityOf_iff {n : Nat} {high : Bool} : polarityOf n = some high ↔ n = 0 ∧ high = true ∨ n = 1 ∧ high = false := by
  match n with
  | 0 | 1 => simp [polarityOf, eq_comm]
  | n + 2 => simp [polarityOf]

theorem lineSet_range {p : List Byte} {s : State} (h : 3 ≤ param1 p 0 ∨ 2 ≤ param1 p 1 ∨ 2 ≤ param1 p 2) :
    lineSet p s = refuse .refusedRange s := by
  unfold lineSet
  cases hm : lineModeOf (param1 p 0) with
  | none => rfl
  | some mode =>
    cases hp : polarityOf (param1 p 1) with
    | none => rfl
    | some high =>
      cases hf : flagOf (param1 p 2) with
      | none => rfl
      | some follow =>
        have hmode := lineModeOf_iff.1 hm
        have hpol := polarityOf_iff.1 hp
        have hflag := (flagOf_iff.1 hf).1
        omega

theorem lineSet_coded {p : List Byte} {s : State} {mode : LineMode} {high follow : Bool} (hm : lineModeOf (param1 p 0) = some mode)
    (hp : polarityOf (param1 p 1) = some high) (hf : flagOf (param1 p 2) = some follow) :
    lineSet p s =
      done { s with sched := { s.sched with line := { s.sched.line with mode := mode, assertedHigh := high, follow := follow } } } := by
  simp only [lineSet, hm, hp, hf]

/-- Settles O45: the edge by the mode in force and the level it reaches; LINE_SET by its three codes. -/
theorem lineEdgesActUnderTheMode : Obligations.LineEdgesActUnderTheMode := by
  refine ⟨fun s hrun => ⟨_, rfl, ?_, ?_, ?_, ?_, ?_, ?_⟩,
    fun s p h => ⟨_, exec_commanded h fun _ => rfl, fun hr => atOnce_refused (lineSet_range hr),
    fun mode high follow hm hp hf => ?_⟩⟩
  · rintro (hmode | ⟨hmode, hrel⟩)
    · rw [lineEdge_off hrun hmode]
      exact ⟨rfl, keeps_sched _ s⟩
    · rw [(lineEdge_sync hrun hmode).trans (if_neg (mt Line.asserted_iff.1 hrel))]
      exact ⟨rfl, keeps_sched _ s⟩
  · intro hmode has
    rw [(lineEdge_pause hrun hmode).trans (if_pos (Line.asserted_iff.2 has))]
    exact pauseEdge_asStated (fun st => by unfold lineAffects profileOf; cases st.sched <;> rfl) true
  · intro hmode hrel hfollow
    rw [(lineEdge_pause hrun hmode).trans ((if_neg (mt Line.asserted_iff.1 hrel)).trans (if_pos hfollow))]
    exact pauseEdge_asStated (fun st => by unfold lineAffects profileOf; cases st.sched <;> rfl) false
  · intro hmode hrel hfollow
    rw [(lineEdge_pause hrun hmode).trans
      ((if_neg (mt Line.asserted_iff.1 hrel)).trans (if_neg (Bool.eq_false_iff.1 hfollow)))]
    exact ⟨offer_keeps _ _ .sched (by decide), Reports.intro [_] ⟨rfl, rfl, rfl, rfl⟩ (keeps_sched _ s)⟩
  · intro hmode has hsec
    rw [(lineEdge_sync hrun hmode).trans (if_pos (Line.asserted_iff.2 has))]
    exact syncEdge_back hsec
  · intro hmode has hsec hpor hrst
    rw [(lineEdge_sync hrun hmode).trans (if_pos (Line.asserted_iff.2 has))]
    exact congrArg Host.Outcome.next (syncEdge_forward hsec hpor hrst).symm
  · have hflag : flagOf (param1 p 2) = some follow := by
      obtain ⟨h0, rfl⟩ | ⟨h1, rfl⟩ := hf
      · rw [h0]
        rfl
      · rw [h1]
        rfl
    have hf := lineSet_coded (s := s) (lineModeOf_iff.2 hm) (polarityOf_iff.2 hp) hflag
    exact ⟨atOnce_leaves hf .sched (by decide), atOnce_ends hf ⟨rfl, rfl, rfl, rfl⟩ rfl (keeps_sched _ s)⟩

end Sys2Proof.Machine

/-! SUPPORT. The pacing period boundary. -/

namespace Sys2Proof.Machine

open Sys2Proof

/-! ### PACING_PERIOD_BOUNDARY (O46) -/

/-- Reports that follow others. -/
theorem SameReporting.offerMore {rs rs' : List Report} {s u v : State} (h : SameReporting (offerAll rs s) u)
    (h' : SameReporting (offerAll rs' u) v) : SameReporting (offerAll (rs ++ rs') s) v := by
  rw [offerAll_append]
  exact (offerAll_parts rs' h).after h'

theorem SameReporting.reports {bs : List Block} {rs : List Report} {s t : State} (h : SameReporting (offerAll rs s) t)
    (hk : KeepsAllBut (bs ++ reportParts) s t) : Reports bs rs s t := ⟨h.cmd, h.own, hk⟩

/-- CAP_APPLIED for each slot with a staged cap (R93). -/
def capReports (slots : Vector AdmSlot 16) : List Report :=
  (List.finRange 16).filterMap fun i => if slots[i].capPending then some (.capApplied i slots[i].stagedCap) else none

/-- FLOW_DEMOTED for each entry that reaches the threshold (R94). -/
def demotionReports (threshold : Nat) (flows : Vector (Option Flow) 256) : List Report :=
  (List.finRange 256).filterMap fun i => (flows[i]).bind fun e =>
    if e.demotes threshold then some (.flowDemoted i e.station e.key e.allowance e.nextOver e.count) else none

theorem filterMap_demotions {threshold : Nat} {flows : Vector (Option Flow) 256} {f : Fin 256 → Option Report}
    (hf : ∀ i, f i = (flows[i]).bind fun e =>
      if e.demotes threshold then some (.flowDemoted i e.station e.key e.allowance e.nextOver e.count) else none) :
    (List.finRange 256).filterMap f = demotionReports threshold flows :=
  congrArg (fun f => List.filterMap f _) (funext hf)

/-- The parameters in force once a staged set has come into force (R93). -/
def paramsInForce (a : Admission) : Pacing := if a.pending then a.staged else a.params

/-- The report of a staged set that comes into force (R93). -/
def pacingReports (a : Admission) : List Report := if a.pending then [.pacingApplied a.staged] else []

/-- Step 1 for the parameters (R93). -/
def applyParams (s : State) : State :=
  if s.adm.pending then offer (.pacingApplied s.adm.staged) { s with adm := { s.adm with params := s.adm.staged, pending := false } } else s

/-- Step 1 for the caps (R93). -/
def applyCaps (s : State) : State :=
  offerAll (capReports s.adm.slots) { s with adm := { s.adm with slots := vmap applyCap s.adm.slots } }

theorem applyStaged_eq (s : State) : applyStaged s = applyCaps (applyParams s) := rfl

section Pacing

variable {s : State}

theorem applyParams_spec (s : State) :
    let t := applyParams s
    t.adm = { s.adm with params := paramsInForce s.adm, pending := false } ∧ t.cls = s.cls ∧
      SameReporting (offerAll (pacingReports s.adm) s) t := by
  unfold applyParams paramsInForce pacingReports
  by_cases h : s.adm.pending = true
  · rw [if_pos h, if_pos h, if_pos h]
    exact ⟨offer_keeps _ _ .adm (by decide), offer_keeps _ _ .cls (by decide), offer_parts _ ⟨rfl, rfl, rfl, rfl⟩⟩
  · rw [if_neg h, if_neg h, if_neg h, ← Bool.eq_false_iff.2 h]
    exact ⟨rfl, rfl, SameReporting.refl s⟩

theorem applyCaps_spec (s : State) :
    let t := applyCaps s
    t.adm = { s.adm with slots := vmap applyCap s.adm.slots } ∧ t.cls = s.cls ∧ SameReporting (offerAll (capReports s.adm.slots) s) t :=
  ⟨offerAll_keeps _ _ .adm (by decide), offerAll_keeps _ _ .cls (by decide), offerAll_parts _ ⟨rfl, rfl, rfl, rfl⟩⟩

theorem demoteFlows_spec (s : State) :
    let t := demoteFlows s
    let reports := demotionReports s.adm.params.threshold s.cls.flows
    t.adm = { s.adm with demotions := satAdd reports.length s.adm.demotions } ∧
      t.cls = { s.cls with flows := vmap (Option.map (Flow.stepOver s.adm.params.threshold)) s.cls.flows } ∧
      SameReporting (offerAll reports s) t :=
  ⟨offerAll_keeps _ _ .adm (by decide), offerAll_keeps _ _ .cls (by decide), offerAll_parts _ ⟨rfl, rfl, rfl, rfl⟩⟩

/-- What the boundary leaves of a slot (R93, R95). -/
def clearedSlot (a : AdmSlot) : AdmSlot := { applyCap a with urgent := 0 }

/-- What the boundary leaves of an entry (R94, R95). -/
def clearedFlow (threshold : Nat) (e : Flow) : Flow := { e.stepOver threshold with periodBytes := 0, overFlag := false }

theorem pacingBoundary_spec (hdue : s.adm.boundaryDue = true) :
    let t := pacingBoundary s
    let demotions := demotionReports (paramsInForce s.adm).threshold s.cls.flows
    SameReporting (offerAll (pacingReports s.adm ++ capReports s.adm.slots ++ demotions) s) t ∧
    t.adm = { s.adm with
      boundaryDue := false, params := paramsInForce s.adm, pending := false, slots := vmap clearedSlot s.adm.slots,
      activity := s.adm.admitted, admitted := false, demotions := satAdd demotions.length s.adm.demotions } ∧
    t.cls = { s.cls with flows := vmap (Option.map (clearedFlow (paramsInForce s.adm).threshold)) s.cls.flows } := by
  let u := { s with adm := { s.adm with boundaryDue := false } }
  obtain ⟨hadm1, hcls1, hrep1⟩ := applyParams_spec u
  obtain ⟨hadm2, hcls2, hrep2⟩ := applyCaps_spec (applyParams u)
  obtain ⟨hadm3, hcls3, hrep3⟩ := demoteFlows_spec (applyStaged u)
  rw [← applyStaged_eq] at hadm2 hcls2 hrep2
  rw [hadm1] at hadm2 hrep2
  rw [hcls1] at hcls2
  rw [hadm2, hcls2] at hadm3 hcls3 hrep3
  have heq : pacingBoundary s = carryActivity (clearPeriod (demoteFlows (applyStaged u))) := if_pos hdue
  have hsu : SameReporting s u := ⟨rfl, rfl, rfl, rfl⟩
  have hclear (v : State) : SameReporting v (carryActivity (clearPeriod v)) := ⟨rfl, rfl, rfl, rfl⟩
  dsimp only
  rw [heq]
  refine ⟨?_, ?_, ?_⟩
  · exact ((offerAll_parts _ hsu).after ((hrep1.offerMore hrep2).offerMore hrep3)).after (hclear _)
  · simp only [carryActivity, clearPeriod, hadm3, vmap_vmap]
    rfl
  · simp only [carryActivity, clearPeriod, hcls3, vmap_vmap, Option.map_comp_map]
    rfl

/-- The entry of an URGENT flow that reaches the threshold is demoted, its over count moves, and no other's does. -/
theorem clearedFlow_eq (threshold : Nat) (e : Flow) : clearedFlow threshold e = { e with
    periodBytes := 0, overFlag := false, overCount := if e.cls = .urgent then e.nextOver else e.overCount,
    cls := if e.demotes threshold = true then .demoted else e.cls } := by
  unfold clearedFlow Flow.stepOver
  by_cases h : e.cls = .urgent
  · rw [if_pos h, if_pos h, h]
  · have hno : ¬e.demotes threshold = true := by simp [Flow.demotes, h]
    rw [if_neg h, if_neg h, if_neg hno]

theorem clearedSlot_eq (a : AdmSlot) : clearedSlot a = { a with
    cap := if a.capPending = true then a.stagedCap else a.cap, capPending := false, urgent := 0 } := by
  unfold clearedSlot applyCap
  by_cases h : a.capPending = true
  · rw [if_pos h, if_pos h]
  · rw [if_neg h, if_neg h, ← Bool.eq_false_iff.2 h]

/-! ### PACING_SET and CAP_SET (O46) -/

variable {p : List Byte}

theorem param1_le (p : List Byte) (i : Nat) : param1 p i ≤ 255 := Nat.le_of_lt_succ (byteAt p i).isLt

theorem pacingSet_inRange (h : 1 ≤ param1 p 0 ∧ 1 ≤ param1 p 1 ∧ param1 p 1 ≤ 15 ∧ 1 ≤ param1 p 2) :
    pacingSet p s = if s.adm.pending then refuse .refusedPending s
      else ⟨{ s with adm := { s.adm with staged := ⟨param1 p 0, param1 p 1, param1 p 2⟩, pending := true } }, .accepted, []⟩ := by
  obtain ⟨h0, h1, h1', h2⟩ := h
  exact if_pos ⟨h0, param1_le p 0, h1, h1', h2, param1_le p 2⟩

theorem pacingSet_range (h : ¬(1 ≤ param1 p 0 ∧ 1 ≤ param1 p 1 ∧ param1 p 1 ≤ 15 ∧ 1 ≤ param1 p 2)) :
    pacingSet p s = refuse .refusedRange s := by
  refine if_neg ?_
  rintro ⟨h0, -, h1, h1', h2, -⟩
  exact h ⟨h0, h1, h1', h2⟩

theorem capSet_slot {k : Fin 16} (hk : param1 p 0 = k.val) (h2 : 2 ≤ k.val) :
    capSet p s = if (s.win.slots[k]).kind ≠ .txRing then refuse .refusedRange s
      else if (s.adm.slots[k]).capPending then refuse .refusedPending s
      else ⟨modAdmSlot k (fun a => { a with stagedCap := param2 p 1, capPending := true }) s, .accepted, []⟩ := by
  have hsoft : (if 2 ≤ param1 p 0 then indexOf 16 (param1 p 0) else none) = some k := softSlot_eq hk h2
  simp only [capSet, hsoft]

theorem capSet_noSlot (h : param1 p 0 < 2 ∨ 16 ≤ param1 p 0) : capSet p s = refuse .refusedRange s := by
  have hsoft : (if 2 ≤ param1 p 0 then indexOf 16 (param1 p 0) else none) = none := softSlot_none h
  simp only [capSet, hsoft]

end Pacing

/-- Settles O46: the four steps of the boundary composed, and the two commands by their checks. -/
theorem pacingBoundaryAppliesAndDemotes : Obligations.PacingBoundaryAppliesAndDemotes := by
  refine ⟨fun s hdue => ⟨_, rfl, ?_⟩, fun s p h => ⟨_, exec_commanded h fun _ => rfl, fun hr => atOnce_refused (pacingSet_range hr),
      fun hv hp => atOnce_refused ((pacingSet_inRange hv).trans (if_pos hp)), fun hv hp => ?_⟩,
    fun s p h => ⟨fun hr => ⟨_, exec_commanded h fun _ => rfl, atOnce_refused (capSet_noSlot hr)⟩, fun k hk h2 =>
      ⟨_, exec_commanded h fun _ => rfl, fun hkind => atOnce_refused ((capSet_slot hk h2).trans (if_pos hkind)),
        fun hkind hp => atOnce_refused ((capSet_slot hk h2).trans ((if_neg (not_not.2 hkind)).trans (if_pos hp))), fun hkind hp => ?_⟩⟩⟩
  · obtain ⟨hrep, hadm, hcls⟩ := pacingBoundary_spec hdue
    intro params overs demoted demotions caps
    have hdem : demotions = demotionReports (paramsInForce s.adm).threshold s.cls.flows := filterMap_demotions fun n => by
      cases s.cls.flows[n] <;> rfl
    rw [hadm, hcls, hdem]
    refine ⟨hrep.reports ((pacingBoundary_keeps s).mono (by decide)), rfl, fun k => ?_, rfl, fun n hn => ?_, fun n e he => ?_⟩
    · exact (vmap_at ..).trans (clearedSlot_eq _)
    · exact (vmap_at ..).trans (congrArg _ hn)
    · exact (vmap_at ..).trans ((congrArg _ he).trans (congrArg some (clearedFlow_eq _ e)))
  · have hf := (pacingSet_inRange (s := s) hv).trans (if_neg (Bool.eq_false_iff.1 hp))
    exact ⟨atOnce_leaves hf .adm (by decide), atOnce_ends hf ⟨rfl, rfl, rfl, rfl⟩ rfl (keeps_adm _ s)⟩
  · have hf := (capSet_slot (s := s) hk h2).trans ((if_neg (not_not.2 hkind)).trans (if_neg (Bool.eq_false_iff.1 hp)))
    have hadm : (atOnce capSet p s).adm = _ := atOnce_leaves hf .adm (by decide)
    rw [hadm]
    exact ⟨rfl, fun j hj => vmod_ne _ _ _ _ hj, vmod_same _ _ _, atOnce_ends hf ⟨rfl, rfl, rfl, rfl⟩ rfl (keeps_adm _ s)⟩

end Sys2Proof.Machine

/-! SUPPORT. The statistics block. -/

namespace Sys2Proof.Machine

open Sys2Proof

/-! ### STATS (O37) -/

theorem foldl_request (ws : List OwnWrite) (s : State) :
    ws.foldl (fun s w => request w s) s = { s with own := { s.own with requests := s.own.requests ++ ws } } := by
  induction ws generalizing s with
  | nil => rw [List.append_nil]; rfl
  | cons w ws ih =>
    rw [List.foldl_cons, ih]
    simp [request]

theorem length_statsWrites (n addr : Nat) (bs : List Byte) : (statsWrites n addr bs).length = n := by
  induction n generalizing addr bs with
  | zero => rfl
  | succ n ih => rw [statsWrites, List.length_cons, ih]

theorem statsWrites_data {n addr : Nat} {bs : List Byte} (h : bs.length ≤ 128 * n) : (statsWrites n addr bs).flatMap OwnWrite.data = bs := by
  induction n generalizing addr bs with
  | zero => exact (List.eq_nil_of_length_eq_zero (by omega)).symm
  | succ n ih =>
    have hrest : (bs.drop 128).length ≤ 128 * n := by
      rw [List.length_drop]
      omega
    rw [statsWrites, List.flatMap_cons, ih hrest]
    exact List.take_append_drop 128 bs

theorem statsWrites_at {n addr k : Nat} {bs : List Byte} {x : OwnWrite} (h : (statsWrites n addr bs)[k]? = some x) :
    x.kind = .stats ∧ x.addr = addr + 128 * k ∧ x.data = (bs.drop (128 * k)).take 128 := by
  induction n generalizing addr bs k with
  | zero => cases h
  | succ n ih =>
    cases k with
    | zero =>
      cases h
      exact ⟨rfl, rfl, rfl⟩
    | succ k =>
      obtain ⟨hkind, haddr, hdata⟩ := ih (k := k) h
      refine ⟨hkind, haddr.trans (by omega), hdata.trans ?_⟩
      rw [List.drop_drop, show 128 + 128 * k = 128 * (k + 1) by omega]

/-! #### The lengths of the sections -/

theorem length_wordBytes (ws : List Word) : (wordBytes ws).length = 4 * ws.length := by
  induction ws with
  | nil => rfl
  | cons w ws ih =>
    have hcons : wordBytes (w :: ws) = leBytes 4 w.toNat ++ wordBytes ws := rfl
    rw [hcons, List.length_append, length_leBytes, ih, List.length_cons]
    omega

@[simp] theorem length_padWords (n : Nat) (ws : List Word) : (padWords n ws).length = n := by simp [padWords]

theorem length_flatMap_const {α β : Type} {f : α → List β} {n : Nat} {l : List α} (h : ∀ a, (f a).length = n) :
    (l.flatMap f).length = l.length * n := by
  induction l with
  | nil => simp
  | cons a l ih => rw [List.flatMap_cons, List.length_append, h, ih, List.length_cons, Nat.succ_mul, Nat.add_comm]

theorem length_sectionStations {sec : Nat} (h3 : 3 ≤ sec) (h18 : sec ≤ 18) (s : State) : (sectionStations s sec).length = 256 := by
  rw [sectionStations, length_flatMap_const (f := stationWords s) (n := 32) fun i => length_padWords _ _]
  simp only [List.length_take, List.length_drop, List.length_finRange]
  omega

theorem sectionWords_stations {sec : Nat} (h3 : 3 ≤ sec) (s : State) : sectionWords s sec = sectionStations s sec := by
  rw [sectionWords, if_neg (by omega), if_neg (by omega), if_neg (by omega)]

/-! #### The clear flag -/

section Clear

variable {f : Station → Station} {s : State}

theorem foldl_modStation_at (hf : ∀ st, f (f st) = f st) (l : List (Fin 128)) (s : State) (i : Fin 128) :
    (l.foldl (fun s i => modStation i f s) s).sta.stations[i] =
      if i ∈ l then (s.sta.stations[i]).map f else s.sta.stations[i] := by
  induction l generalizing s with
  | nil => rfl
  | cons a l ih =>
    rw [List.foldl_cons, ih, modStation_at]
    have hff (o : Option Station) : (o.map f).map f = o.map f := by
      rw [Option.map_map]
      exact congrArg (o.map ·) (funext hf)
    by_cases hia : i = a
    · subst hia
      simp [hff]
    · simp [hia]

theorem mem_eight {k : Nat} {i : Fin 128} : i ∈ ((List.finRange 128).drop k).take 8 ↔ k ≤ i.val ∧ i.val < k + 8 := by
  rw [List.mem_take_iff_getElem]
  constructor
  · rintro ⟨j, hj, rfl⟩
    have hj' : j < 8 := by omega
    simp
    omega
  · rintro ⟨hlo, hhi⟩
    refine ⟨i.val - k, ?_, ?_⟩
    · simp
      omega
    · ext
      simp
      omega

theorem clear1_keeps (s : State) : KeepsAllBut [.rew, .adm] s (clear1 s) := by
  intro b hb
  cases b <;> first | rfl | exact absurd (by decide) hb

/-- What a cleared section leaves alone. -/
theorem clearSection_frame (sec : Nat) (s : State) :
    KeepsAllBut [.capture, .cls, .adm, .sig, .hold, .img, .rew, .sta, .cmd] s (clearSection sec s) := by
  unfold clearSection
  split
  · intro b hb; cases b <;> first | rfl | exact absurd (by decide) hb
  · split
    · intro b hb; cases b <;> first | rfl | exact absurd (by decide) hb
    · split
      · exact .refl _ s
      · exact (foldl_keeps (fun s i => modStation_keeps i clearCounts s) _ s).mono (by decide)

theorem clearStations_spec (sec : Nat) (s : State) :
    let t := clearStations sec s
    KeepsAllBut [.sta] s t ∧ t.sta.unknown = s.sta.unknown ∧ t.sta.carry = s.sta.carry ∧ ∀ i : Fin 128, t.sta.stations[i] =
      if 8 * (sec - 3) ≤ i.val ∧ i.val < 8 * (sec - 3) + 8 then (s.sta.stations[i]).map clearCounts else s.sta.stations[i] := by
  have hlists (l : List (Fin 128)) (s : State) : (l.foldl (fun s i => modStation i clearCounts s) s).sta.unknown = s.sta.unknown ∧
      (l.foldl (fun s i => modStation i clearCounts s) s).sta.carry = s.sta.carry := by
    induction l generalizing s with
    | nil => exact ⟨rfl, rfl⟩
    | cons a l ih => exact ih _
  obtain ⟨hunknown, hcarry⟩ := hlists (((List.finRange 128).drop (8 * (sec - 3))).take 8) s
  refine ⟨foldl_keeps (fun s i => modStation_keeps i clearCounts s) _ s, hunknown, hcarry, fun i => ?_⟩
  rw [clearStations, foldl_modStation_at (f := clearCounts) fun _ => rfl]
  simp only [mem_eight]

end Clear

/-! #### The section taken -/

/-- The state in which the writes of a section are requested. -/
def sectionCleared (sec : Nat) (clear : Bool) (s : State) : State :=
  let u := { s with free := if sec = 0 then s.free + 4 else s.free }
  if clear then clearSection sec u else u

/-- The own writes of a section. -/
def sectionWrites (sec : Nat) (s : State) : List OwnWrite :=
  statsWrites (statsCount (wordBytes (sectionWords s sec)).length) (s.control + Config.statsOffset) (wordBytes (sectionWords s sec))

section Taken

variable {sec : Nat} {clear : Bool} {s : State}

theorem sectionCleared_frame (sec : Nat) (clear : Bool) (s : State) :
    KeepsAllBut [.free, .capture, .cls, .adm, .sig, .hold, .img, .rew, .sta, .cmd] s (sectionCleared sec clear s) := by
  have hfree := keeps_free (if sec = 0 then s.free + 4 else s.free) s
  cases clear
  · exact hfree.mono (by decide)
  · exact (hfree.append (clearSection_frame sec _)).mono (by decide)

theorem takeSection_eq (sec : Nat) (clear : Bool) (s : State) :
    let bs := wordBytes (sectionWords s sec)
    let u := sectionCleared sec clear s
    takeSection sec clear s =
      setExecuting (.stats sec bs.length (statsCount bs.length) false)
        { u with own := { s.own with requests := s.own.requests ++ sectionWrites sec s } } := by
  have hown : (sectionCleared sec clear s).own = s.own := sectionCleared_frame sec clear s .own (by decide)
  have hwin : (sectionCleared sec clear s).win = s.win := sectionCleared_frame sec clear s .win (by decide)
  have hcontrol : (sectionCleared sec clear s).control = s.control := by rw [State.control, hwin]; rfl
  have heq : takeSection sec clear s =
      setExecuting (.stats sec (wordBytes (sectionWords s sec)).length (statsCount (wordBytes (sectionWords s sec)).length) false)
        ((statsWrites (statsCount (wordBytes (sectionWords s sec)).length) ((sectionCleared sec clear s).control + Config.statsOffset)
          (wordBytes (sectionWords s sec))).foldl (fun s w => request w s) (sectionCleared sec clear s)) := rfl
  rw [heq, foldl_request, hown, hcontrol]
  rfl

theorem sectionWrites_length (sec : Nat) (s : State) : (sectionWrites sec s).length = ((wordBytes (sectionWords s sec)).length + 127) / 128 :=
  length_statsWrites ..

theorem sectionWrites_data (sec : Nat) (s : State) : (sectionWrites sec s).flatMap OwnWrite.data = wordBytes (sectionWords s sec) := by
  refine statsWrites_data ?_
  unfold statsCount
  omega

theorem exec_stats {p : List Byte} (h : commanded s 0x20 p = true) : exec .stats s = .next (stats p s) :=
  congrArg Host.Outcome.next (runCommand_commanded h stats)

theorem stats_taken {p : List Byte} (hsec : (byteAt p 0).toNat ≤ 18) (hclear : (byteAt p 1).toNat = clear.toNat) :
    stats p s = takeSection (byteAt p 0).toNat clear s := by
  have hflag : flagOf (param1 p 1) = some clear := flagOf_iff.2 ⟨hclear.le.trans (Bool.toNat_le clear), by rw [param1, hclear]; cases clear <;> rfl⟩
  simp only [stats, hflag]
  exact if_pos hsec

theorem stats_range {p : List Byte} (h : 18 < (byteAt p 0).toNat ∨ 1 < (byteAt p 1).toNat) : stats p s = completeCommand .refusedRange [] s := by
  unfold stats
  cases hf : flagOf (param1 p 1) with
  | none => rfl
  | some clear =>
    have hle : (byteAt p 1).toNat ≤ 1 := (flagOf_iff.1 hf).1
    have hout : ¬param1 p 0 ≤ 18 := fun hin => h.elim (Nat.not_lt.2 hin) (Nat.not_lt.2 hle)
    exact if_neg hout

/-- A section touches, besides what its clearing does, the own writes and the Command Unit. -/
theorem takeSection_keepsAllBut {bs : List Block} (h : KeepsAllBut bs s (sectionCleared sec clear s)) :
    KeepsAllBut (bs ++ [.own] ++ [.cmd]) s (takeSection sec clear s) := by
  rw [takeSection_eq]
  exact (h.append (keeps_own _ _)).append (keeps_cmd _ _)

theorem takeSection_sta (sec : Nat) (clear : Bool) (s : State) : (takeSection sec clear s).sta = (sectionCleared sec clear s).sta := by
  rw [takeSection_eq]
  rfl

theorem sectionCleared_stations (h : 3 ≤ sec) : sectionCleared sec true s = clearStations sec { s with free := s.free } := by
  rw [sectionCleared, if_pos rfl, clearSection, if_neg (by omega), if_neg (by omega), if_neg (by omega), if_neg (by omega)]

theorem takeSection_own (sec : Nat) (clear : Bool) (s : State) :
    (takeSection sec clear s).own = { s.own with requests := s.own.requests ++ sectionWrites sec s } := by rw [takeSection_eq]; rfl

theorem takeSection_executing (sec : Nat) (clear : Bool) (s : State) : (takeSection sec clear s).cmd.executing =
    .stats sec (wordBytes (sectionWords s sec)).length (sectionWrites sec s).length false := by
  rw [takeSection_eq, sectionWrites_length]
  rfl

/-- A section that carries no count of the Command Unit. -/
theorem takeSection_cmd (clear : Bool) (h : sec ≠ 0) :
    (takeSection sec clear s).cmd = { s.cmd with executing := (takeSection sec clear s).cmd.executing } := by
  have hcmd : (sectionCleared sec clear s).cmd = s.cmd := by
    cases clear
    · rfl
    · rw [sectionCleared, if_pos rfl, clearSection, if_neg h]
      by_cases h1 : sec = 1
      · rw [if_pos h1]
        rfl
      · rw [if_neg h1]
        by_cases h2 : sec = 2
        · rw [if_pos h2]
        · rw [if_neg h2]
          exact (clearStations_spec _ _).1 .cmd (by decide)
  rw [takeSection_eq, setExecuting]
  dsimp only
  rw [hcmd]

end Taken

/-! #### The responses -/

section Responses

variable {s : State} {before after : List (Nat × OwnKind)} {tag sec bytes awaited : Nat} {fault : Bool} {resp : Resp}

theorem statsResponse_eq (hi : s.own.issued = before ++ (tag, .stats) :: after) (hne : ∀ e ∈ before ++ after, e.1 ≠ tag)
    (he : s.cmd.executing = .stats sec bytes awaited fault) : statsResponse tag resp s =
      if awaited ≤ 1 then completeCommand .done [] (offer (.statsWritten (fault || resp != .okay) sec bytes)
        { s with own := { s.own with issued := before ++ after } })
      else setExecuting (.stats sec bytes (awaited - 1) (fault || resp != .okay)) { s with own := { s.own with issued := before ++ after } } := by
  obtain ⟨hkind, hdrop⟩ := ownKind_awaited hi hne
  rw [statsResponse, hkind, he, hdrop]

end Responses

/-- Settles O37: the section taken is `takeSection_eq`, its writes `statsWrites_at`, and each response is counted down. -/
theorem statsTakesASectionAndClearsItsCounts : Obligations.StatsTakesASectionAndClearsItsCounts := by
  refine ⟨⟨fun s p clear h hsec hclear => ⟨_, sectionWrites (byteAt p 0).toNat s, exec_stats h, ?_⟩, fun s => ⟨?_, ?_, fun n h3 h18 => ?_⟩,
      fun s p h hr => ⟨_, exec_stats h, ?_⟩⟩, fun s p h hclear => 
      ⟨_, exec_stats h, fun h0 => ?_, fun h1 => ?_, fun h2 => ?_, fun h3 h18 => ?_⟩,
    fun s before after tag sec bytes awaited fault resp hi hne he =>
      ⟨_, congrArg Host.Outcome.next (statsResponse_eq hi hne he), fun h2 => ?_, fun h1 => ?_⟩⟩
  · rw [stats_taken hsec hclear]
    refine ⟨takeSection_own .., sectionWrites_data .., sectionWrites_length .., fun k x hx => statsWrites_at hx, takeSection_executing ..,
      (takeSection_same ..).2.1, fun hc => ?_, fun _ => (takeSection_keepsAllBut (sectionCleared_frame _ clear s)).mono (by decide)⟩
    subst hc
    refine ⟨(takeSection_keepsAllBut (clear := false) (keeps_free _ s)).mono (by decide), ?_⟩
    rw [takeSection_eq]
    rfl
  · rw [length_wordBytes, show sectionWords s 1 = section1 s from rfl, section1, length_flatMap_const (n := 17) fun i => rfl]
    rfl
  · rw [length_wordBytes, show sectionWords s 2 = section2 s from rfl, section2,
      length_flatMap_const (f := handoffWords) (n := 8) fun h => length_padWords _ _, Vector.length_toList]
  · rw [length_wordBytes, sectionWords_stations h3, length_sectionStations h3 h18]
  · rw [stats_range hr]
    exact TurnedAway.intro .refusedRange s
  · rw [stats_taken (clear := true) (by omega) hclear, h0, takeSection_eq]
    exact ⟨rfl, rfl, rfl, replicate_at _, rfl, rfl, rfl, rfl, rfl, rfl, rfl, rfl, rfl, rfl, rfl, rfl⟩
  · have hclear1 : KeepsAllBut [.free, .rew, .adm] s (sectionCleared 1 true s) :=
      (keeps_free s.free s).append (clear1_keeps _)
    rw [stats_taken (clear := true) (by omega) hclear, h1]
    refine ⟨fun i => ?_, ?_, fun i => ?_, ?_, takeSection_cmd true (by decide), (takeSection_keepsAllBut hclear1).mono (by decide)⟩
    all_goals rw [takeSection_eq]
    · exact replicate_at _ i
    · rfl
    · exact vmap_at ..
    · rfl
  · rw [stats_taken (clear := true) (by omega) hclear, h2]
    exact ⟨takeSection_cmd true (by decide), (takeSection_keepsAllBut (sec := 2) (clear := true) (keeps_free _ s)).mono (by decide)⟩
  · rw [stats_taken (clear := true) h18 hclear]
    obtain ⟨hkeep, hunknown, hcarry, hstations⟩ := clearStations_spec (byteAt p 0).toNat s
    refine ⟨takeSection_cmd true (by omega), (takeSection_keepsAllBut (bs := [.sta]) ?_).mono (by decide), ?_⟩
    · rw [sectionCleared_stations h3]
      exact hkeep
    · rw [takeSection_sta, sectionCleared_stations h3]
      exact ⟨hunknown, hcarry, hstations⟩
  · rw [if_neg (by omega)]
    exact ⟨rfl, rfl, ((keeps_own _ s).append (keeps_cmd _ _)).mono (by decide)⟩
  · rw [if_pos h1.le]
    exact EndsWith.intro [_] .done [] ⟨rfl, rfl, rfl, rfl⟩ rfl (KeepsAllBut.refl _ _)

/-! ### The words of the statistics block (O38) -/

theorem wFlag_eq (b : Bool) : wFlag b = BitVec.ofNat 32 (if b = true then 1 else 0) := by cases b <;> rfl

theorem wFlag_not (b : Bool) : wFlag (!b) = BitVec.ofNat 32 (if b = true then 0 else 1) := by cases b <;> rfl

theorem zeroExtend_word {n : Nat} (x : BitVec n) : x.zeroExtend 32 = BitVec.ofNat 32 x.toNat := by
  apply BitVec.eq_of_toNat_eq
  simp

theorem LineMode.code_eq (m : LineMode) : m.code = [LineMode.off, .pause, .sync].idxOf m := by cases m <;> rfl

theorem Roam.code_eq (r : Roam) : r.code = [Roam.settled, .watch, .candidate, .handoff, .holdoff].idxOf r := by cases r <;> rfl

/-- A block of a concatenation of blocks of one length. -/
theorem block_flatMap {α β : Type} {f : α → List β} {n : Nat} (h : ∀ a, (f a).length = n) {l : List α} {k : Nat} {a : α}
    (hk : l[k]? = some a) :
    ((l.flatMap f).drop (n * k)).take n = f a := by
  induction l generalizing k with
  | nil => cases hk
  | cons b l ih =>
    cases k with
    | zero =>
      cases hk
      rw [List.flatMap_cons, Nat.mul_zero, List.drop_zero, List.take_left' (h _)]
    | succ k =>
      rw [List.flatMap_cons, Nat.mul_succ, Nat.add_comm, ← List.drop_drop, List.drop_left' (h b)]
      exact ih hk

theorem padWords_short {n m : Nat} {ws : List Word} (h : ws.length + m = n) : padWords n ws = ws ++ List.replicate m 0 := by
  subst h
  rw [padWords, List.take_append, List.take_of_length_le (by omega), Nat.add_sub_cancel_left, List.take_replicate]
  congr 2
  omega

theorem leNat_cons_mod (b : Byte) (bs : List Byte) : leNat (b :: bs) % 256 = b.toNat := by
  have hb := b.isLt
  rw [leNat]
  omega

theorem leNat_cons_div (b : Byte) (bs : List Byte) : leNat (b :: bs) / 256 = leNat bs := by
  have hb := b.isLt
  rw [leNat]
  omega

theorem leNat_take (k : Nat) (bs : List Byte) : leNat (bs.take k) = leNat bs % 256 ^ k := by
  induction k generalizing bs with
  | zero => exact (Nat.mod_one _).symm
  | succ k ih =>
    cases bs with
    | nil => exact (Nat.zero_mod _).symm
    | cons b bs => rw [List.take_succ_cons, leNat, ih, Nat.pow_succ', Nat.mod_mul, leNat_cons_mod, leNat_cons_div]

theorem leNat_drop (k : Nat) (bs : List Byte) : leNat (bs.drop k) = leNat bs / 256 ^ k := by
  induction k generalizing bs with
  | zero => exact (Nat.div_one _).symm
  | succ k ih =>
    cases bs with
    | nil => exact (Nat.zero_div _).symm
    | cons b bs => rw [List.drop_succ_cons, ih, Nat.pow_succ', ← Nat.div_div_eq_div_mul, leNat_cons_div]

/-! #### Sections 1 to 18 -/

theorem slotWords_eq (c : SlotCounts) (a : AdmSlot) : slotWords c a =
    words [c.forwarded, c.discarded, c.parked, c.uncaptured, c.unresolved, c.partials, c.statusTaken, c.statusDropped, c.statusUnknown,
      c.statusPartial, a.admitted, a.spillAllowance, a.spillCap, a.withheld, a.cap, a.stagedCap, if a.capPending = true then 1 else 0] := by
  rw [slotWords, wFlag_eq]
  rfl

theorem section1_block {s : State} {k : Fin 16} (h : 2 ≤ k.val) :
    ((sectionWords s 1).drop (17 * (k.val - 2))).take 17 = slotWords s.rew.counts[k] s.adm.slots[k] := by
  refine block_flatMap (f := fun i : Fin 16 => slotWords s.rew.counts[i] s.adm.slots[i]) (fun _ => rfl) ?_
  rw [List.getElem?_drop, show 2 + (k.val - 2) = k.val by omega]
  simp

theorem section2_block {s : State} {k : Fin 16} : ((sectionWords s 2).drop (8 * k.val)).take 8 = handoffWords s.hold.slots[k] := by
  refine block_flatMap (f := handoffWords) (fun _ => length_padWords _ _) ?_
  simp

theorem handoffWords_occupied (o : Occupied) : handoffWords (.occupied o) =
    words [1, o.station.val, o.tag.toNat, o.start, o.requests, o.list.length, 0, 0] := by
  rw [handoffWords, zeroExtend_word]
  rfl

theorem handoffWords_dumping (d : Dumping) : handoffWords (.dumping d) = words [2, d.station.val, d.tag.toNat, d.start, d.requests, 0, 0, 0] := by
  rw [handoffWords, zeroExtend_word]
  rfl

theorem stationSection_block {s : State} {i : Fin 128} :
    ((sectionWords s (3 + i.val / 8)).drop (32 * (i.val % 8))).take 32 = stationWords s i := by
  rw [sectionWords_stations (by omega)]
  refine block_flatMap (f := stationWords s) (fun _ => length_padWords _ _) ?_
  have hplace : 8 * (3 + i.val / 8 - 3) + i.val % 8 = i.val := by omega
  rw [List.getElem?_take, if_pos (by omega), List.getElem?_drop, hplace]
  simp

theorem wMac_eq (m : Mac) : wMac m = words [leNat (macBytes m) % 4294967296, leNat (macBytes m) / 4294967296] := by
  rw [wMac, leNat_take, leNat_drop]
  rfl

theorem peerWords_some (now maxAge : Nat) (p : Peer) : peerWords now maxAge (some p) =
    [BitVec.ofNat 32 p.node, BitVec.ofInt 32 p.est, BitVec.ofNat 32 p.measuredAt, if maxAge < now - p.measuredAt then 1 else 0] := by
  rw [peerWords, Peer.expired, wFlag]
  simp only [decide_eq_true_eq]
  rfl

theorem installedWords_eq (now maxAge : Nat) (i : Fin 128) (st : Station) :
    padWords 32 (installedWords now maxAge i.val st) = stationEntry now maxAge i st := by
  have hlen : (installedWords now maxAge i.val st).length + 9 = 32 := by
    simp only [installedWords, wMac, List.length_append]
    cases st.peer <;> rfl
  rw [padWords_short hlen, installedWords, stationEntry, wMac_eq, Reasons.code_eq, Roam.code_eq, wFlag_eq, wFlag_eq, wFlag_eq]
  cases st.peer with
  | none => cases st.sched <;> cases st.est <;> rfl
  | some p => rw [peerWords_some]; cases st.sched <;> cases st.est <;> rfl

/-! #### Section 0 -/

section Section0

variable {s : State}

/-- The uptime of the oldest capture record, 0 when there is none (R25). -/
def oldestUptime : List Capture → Nat
  | [] => 0
  | r :: _ => r.uptime

/-- The mask of a pending commit, 0 when there is none (R65). -/
def pendingMask : Option (BitVec 16) → Nat
  | none => 0
  | some m => m.toNat

theorem captureWords_eq (c : CaptureUnit) :
    captureWords c = words [c.replaced, c.evicted, c.captured, c.records.length, oldestUptime c.records] := by
  unfold captureWords
  cases c.records <;> rfl

theorem scheduleWords_eq (c : Schedule) : scheduleWords c =
    words [c.clock.minute, c.clock.second, if c.clock.isSet = true then 0 else 1, pendingMask c.commit,
      [LineMode.off, .pause, .sync].idxOf c.line.mode, if c.line.assertedHigh = true then 0 else 1, if c.line.follow = true then 1 else 0,
      if c.line.level = c.line.assertedHigh then 0 else 1] := by
  have hasserted : wFlag (!c.line.asserted) = BitVec.ofNat 32 (if c.line.level = c.line.assertedHigh then 0 else 1) := by
    rw [wFlag_not]
    simp only [Line.asserted_iff]
  rw [scheduleWords, hasserted, LineMode.code_eq, wFlag_not, wFlag_not, wFlag_eq]
  cases c.commit with
  | none => rfl
  | some m =>
    dsimp only
    rw [zeroExtend_word]
    rfl

theorem classifierWords_eq (c : Classifier) : classifierWords c = words c.decisions.toList ++
    words [c.defaultCount, c.learned, c.evicted, c.aged, c.removed, c.flows.toList.countP Option.isSome,
      c.flows.toList.countP fun o => o.any Flow.pinned] := rfl

theorem admissionWords_eq (a : Admission) : admissionWords a =
    words [a.demotions, a.params.period, a.params.threshold, a.params.idleTimeout, a.staged.period, a.staged.threshold, a.staged.idleTimeout,
      if a.pending = true then 1 else 0, if a.activity = true then 1 else 0] := by
  rw [admissionWords, wFlag_eq, wFlag_eq]
  rfl

/-- The words of the Image Unit between its record copy and its activation window (log 16). -/
def stagingWords (free : Nat) (g : Staging) : List Word :=
  [wNat g.state.code, stagingBankWord free g.bank, wNat g.length, g.version, wNat g.chunkCount, wNat (chunkCountIn g .complete),
    wNat (chunkCountIn g .disordered)] ++ sweepWords (free + 1) g.sweep

theorem sweepWords_eq (free : Nat) (w : Option Sweep) : ∃ share yields offset, sweepWords free w = [share, yields, offset] ∧
    ∀ v, w = some v → share = wNat v.share ∧ yields = wFlag v.yields ∧ offset = wNat v.offset := by
  cases w with
  | none => exact ⟨_, _, _, rfl, nofun⟩
  | some w =>
    refine ⟨_, _, _, rfl, fun v hv => ?_⟩
    cases hv
    exact ⟨rfl, rfl, rfl⟩

theorem imageWords_eq (free : Nat) (g : ImageUnit) : imageWords free g =
    words [bankCode g.bank, g.trial] ++ recordWords g.record ++ stagingWords free g.staging ++
    words [if g.window.enabled = true then 1 else 0, g.window.days.toNat, g.window.start, g.window.stop, g.window.quiet,
      if g.dueSent = true then 1 else 0, g.refusedWrites, g.refusedRecords, g.outside] := by
  rw [imageWords, Bank.code_eq, wFlag_eq, wFlag_eq, zeroExtend_word, stagingWords]
  simp only [List.append_assoc]
  rfl

theorem section0_eq {oldest commit : Nat} {record staging : List Word} (ho : oldest = oldestUptime s.capture.records)
    (hc : commit = pendingMask s.sched.commit) (hr : record = recordWords s.img.record)
    (hg : staging = stagingWords s.free s.img.staging) :
    section0 s = words [s.capture.replaced, s.capture.evicted, s.capture.captured, s.capture.records.length,
        oldest, s.sta.unknown.length, s.sta.carry.length,
        s.sched.clock.minute, s.sched.clock.second, if s.sched.clock.isSet = true then 0 else 1,
        commit, [LineMode.off, .pause, .sync].idxOf s.sched.line.mode,
        if s.sched.line.assertedHigh = true then 0 else 1, if s.sched.line.follow = true then 1 else 0,
        if s.sched.line.level = s.sched.line.assertedHigh then 0 else 1] ++
      words s.cls.decisions.toList ++
      words [s.cls.defaultCount, s.cls.learned, s.cls.evicted, s.cls.aged, s.cls.removed, s.cls.flows.toList.countP Option.isSome,
        s.cls.flows.toList.countP fun o => o.any Flow.pinned,
        s.adm.demotions, s.adm.params.period, s.adm.params.threshold, s.adm.params.idleTimeout, s.adm.staged.period,
        s.adm.staged.threshold, s.adm.staged.idleTimeout, if s.adm.pending = true then 1 else 0, if s.adm.activity = true then 1 else 0,
        s.sig.samplesTaken, s.sig.samplesInvalid, s.sig.samplesLost, s.sig.peerTaken, s.sig.peerIgnored, s.sig.peerPartial, s.sig.node,
        s.hold.departed, s.hold.stayed, s.hold.timedOut, s.hold.cleared, s.hold.dumpFaults, s.hold.free,
        bankCode s.img.bank, s.img.trial] ++ record ++ staging ++
      words [if s.img.window.enabled = true then 1 else 0, s.img.window.days.toNat, s.img.window.start, s.img.window.stop,
        s.img.window.quiet, if s.img.dueSent = true then 1 else 0, s.img.refusedWrites, s.img.refusedRecords, s.img.outside,
        s.cmd.ignored, s.cmd.tailIgnored, s.cmd.reportFaults, s.cmd.lost, s.cmd.head, s.cmd.tail,
        s.sta.stations.toList.countP Option.isSome] := by
  subst ho hc hr hg
  rw [section0, captureWords_eq, scheduleWords_eq, classifierWords_eq, admissionWords_eq, imageWords_eq]
  simp only [List.append_assoc]
  rfl

end Section0

/-- Settles O38: section 0 group by group in the order of its rules, the other sections block by block. -/
theorem statisticsWordsStandInTheirOrder : Obligations.StatisticsWordsStandInTheirOrder := by
  refine ⟨fun s => ?_, fun s k h => section1_block h ▸ slotWords_eq _ _, fun s k => section2_block.trans ?_, fun s i => stationSection_block.trans ?_⟩
  · obtain ⟨share, yields, offset, hsweep, hvalues⟩ := sweepWords_eq (s.free + 1) s.img.staging.sweep
    refine ⟨stagingBankWord s.free s.img.staging.bank, share, yields, offset, section0_eq ?_ ?_ ?_ ?_, fun k hk => ?_, fun v hv => ?_⟩
    · cases s.capture.records <;> rfl
    · cases s.sched.commit <;> rfl
    · cases s.img.record <;> rfl
    · rw [stagingWords, hsweep, StagingState.code_eq]
      rfl
    · rw [hk, stagingBankWord, Bank.code_eq]
      rfl
    · obtain ⟨hshare, hyields, hoffset⟩ := hvalues v hv
      exact ⟨hshare, hyields, hoffset⟩
  · cases s.hold.slots[k] with
    | free => rfl
    | occupied o => exact handoffWords_occupied o
    | dumping d => exact handoffWords_dumping d
  · rw [stationWords]
    cases s.sta.stations[i] with
    | none => rfl
    | some st => exact installedWords_eq ..

end Sys2Proof.Machine

/-! SUPPORT. The minute boundary. -/

namespace Sys2Proof.Machine

open Sys2Proof

/-! ### A pass over the stations

The steps of Table 3.3 each change every installed station by one function and offer reports; passes compose. -/

/-- `t` is `s` with every installed station changed by `f`, and what reports depend on as `rs` leave it. -/
structure Pass (rs : List Report) (f : Station → Station) (s t : State) : Prop where
  reporting  : SameReporting (offerAll rs s) t
  stationsAt : ∀ i : Fin 128, t.sta.stations[i] = (s.sta.stations[i]).map f
  unknown    : t.sta.unknown = s.sta.unknown

namespace Pass

variable {rs rs' : List Report} {f g : Station → Station} {s t u : State}

theorem refl (s : State) : Pass [] id s s := ⟨.refl s, fun i => by rw [Option.map_id]; rfl, rfl⟩

theorem append (h : Pass rs f s t) (h' : Pass rs' g t u) : Pass (rs ++ rs') (g ∘ f) s u :=
  ⟨h.reporting.offerMore h'.reporting, fun i => by rw [h'.stationsAt, h.stationsAt, Option.map_map], h'.unknown.trans h.unknown⟩

/-- A pass that reports nothing. -/
theorem silent (f : Station → Station) (s : State) : Pass [] f s (mapStations f s) :=
  ⟨⟨rfl, rfl, rfl, rfl⟩, fun i => mapStations_at f s i, rfl⟩

/-- Reports after a pass. -/
theorem offering (h : Pass rs f s t) (rs' : List Report) : Pass (rs ++ rs') f s (offerAll rs' t) := by
  have hsta := offerAll_keeps rs' t .sta (by decide)
  have hrest : Pass rs' id t (offerAll rs' t) :=
    ⟨.refl _, fun i => by rw [hsta, Option.map_id]; rfl, by rw [hsta]⟩
  exact h.append hrest

/-- A change of the Schedule Unit. -/
theorem schedule (x : Schedule) (s : State) : Pass [] id s { s with sched := x } :=
  ⟨⟨rfl, rfl, rfl, rfl⟩, fun i => by rw [Option.map_id]; rfl, rfl⟩

end Pass

/-! ### The steps of Table 3.3 (O43) -/

/-- ALLOWANCE_LOW for each station for which it is due, in ascending index (R53). -/
def lowReports (clock : Clock) (active : Vector SchedProfile 16) (stations : Vector (Option Station) 128) : List Report :=
  stationList stations fun i st =>
    if lowDue clock active st then
      some (Report.allowanceLow i st.used st.extra (st.limit (allowanceOf active st)) (st.remaining (allowanceOf active st)))
    else none

/-- Step 3 for one station (R53). -/
def warn (clock : Clock) (active : Vector SchedProfile 16) (st : Station) : Station :=
  if lowDue clock active st then { st with lowSent := true } else st

/-- Step 4 for one station (R54). -/
def rolled (newDay : Bool) (st : Station) : Station := if newDay then rollStation st else st

/-- The active copies after step 5 (R55). -/
def activeAfter (c : Schedule) : Vector SchedProfile 16 := c.commit.elim c.active fun mask => committed mask c.active c.shadow

/-- Step 5 for one station (R55). -/
def retested (commit : Option (BitVec 16)) (active : Vector SchedProfile 16) (st : Station) : Station :=
  if commit.any fun mask => inMask mask st then retest active st else st

/-- The report of step 5 (R55). -/
def commitReports (commit : Option (BitVec 16)) : List Report := commit.elim [] fun mask => [.commitApplied mask]

section Steps

variable (s : State)

theorem warnLow_pass : Pass (lowReports s.sched.clock s.sched.active s.sta.stations) (warn s.sched.clock s.sched.active) s (warnLow s) :=
  (Pass.silent _ s).offering _

theorem warnLow_frame : KeepsAllBut [.sta, .cmd, .own] s (warnLow s) ∧ (warnLow s).sta.carry = s.sta.carry := by
  have hoff := offerAll_keeps (lowReports s.sched.clock s.sched.active s.sta.stations) (mapStations (warn s.sched.clock s.sched.active) s)
  have hsta : (warnLow s).sta = (mapStations (warn s.sched.clock s.sched.active) s).sta := hoff .sta (by decide)
  refine ⟨(mapStations_keeps _ s).append hoff, ?_⟩
  rw [hsta]
  rfl

theorem rollover_pass (newDay : Bool) : Pass [] (rolled newDay) s (if newDay then rollover s else s) := by
  cases newDay with
  | false => exact Pass.refl s
  | true => exact ⟨⟨rfl, rfl, rfl, rfl⟩, fun i => mapStations_at rollStation s i, rfl⟩

theorem rollover_frame (newDay : Bool) :
    KeepsAllBut [.sta] s (if newDay then rollover s else s) ∧
      (if newDay then rollover s else s).sta.carry = if newDay then [] else s.sta.carry := by
  cases newDay with
  | false => exact ⟨.refl _ s, rfl⟩
  | true => exact ⟨((mapStations_keeps rollStation s).append (keeps_sta _ _)).mono (by decide), rfl⟩

/-- The state in which a pending commit has replaced the active copies (R55). -/
def commitTaken (mask : BitVec 16) (s : State) : State :=
  { s with sched := { s.sched with active := committed mask s.sched.active s.sched.shadow, commit := none } }

theorem applyCommit_none (h : s.sched.commit = none) : applyCommit s = s := by
  unfold applyCommit
  rw [h]

theorem applyCommit_some {mask : BitVec 16} (h : s.sched.commit = some mask) : applyCommit s = offer (.commitApplied mask)
    (mapStations (retested (some mask) (committed mask s.sched.active s.sched.shadow)) (commitTaken mask s)) := by
  unfold applyCommit
  split
  · next hn => exact absurd (h.symm.trans hn) nofun
  · next m hm =>
    cases h.symm.trans hm
    rfl

theorem applyCommit_spec :
    let t := applyCommit s
    Pass (commitReports s.sched.commit) (retested s.sched.commit (activeAfter s.sched)) s t ∧
      t.sched = { s.sched with active := activeAfter s.sched, commit := none } ∧ t.sta.carry = s.sta.carry ∧
      KeepsAllBut [.sched, .sta, .cmd, .own] s t := by
  dsimp only
  cases hc : s.sched.commit with
  | none =>
    have hact : activeAfter s.sched = s.sched.active := by rw [activeAfter, hc]; rfl
    have hsched : s.sched = { s.sched with commit := none } := by rw [← hc]
    rw [applyCommit_none s hc, hact]
    exact ⟨Pass.refl s, hsched, rfl, .refl _ s⟩
  | some mask =>
    have hact : activeAfter s.sched = committed mask s.sched.active s.sched.shadow := by rw [activeAfter, hc]; rfl
    have htaken : Pass [] id s (commitTaken mask s) := Pass.schedule _ s
    have hmapped := mapStations_keeps (retested (some mask) (committed mask s.sched.active s.sched.shadow)) (commitTaken mask s)
    have hkeep := offer_keeps (.commitApplied mask)
      (mapStations (retested (some mask) (committed mask s.sched.active s.sched.shadow)) (commitTaken mask s))
    rw [applyCommit_some s hc, hact, hkeep .sched (by decide), hkeep .sta (by decide)]
    have hretest := Pass.silent (retested (some mask) (committed mask s.sched.active s.sched.shadow)) (commitTaken mask s)
    have hpass := (htaken.append hretest).offering [.commitApplied mask]
    have htakes : KeepsAllBut [.sched] s (commitTaken mask s) := keeps_sched _ s
    exact ⟨hpass, rfl, rfl, (htakes.append hmapped).append hkeep⟩

theorem evaluateAll_carry : (evaluateAll s).sta.carry = s.sta.carry := rfl

/-- Steps 1 to 6: what the boundary does to the stations before it looks at the image (Table 3.3). -/
def boundaryStations (s : State) : State :=
  let clock := s.sched.clock
  let s := warnLow (mapStations (setAllowance clock s.sched.active) (mapStations (countMinute clock s.sched.active) s))
  evaluateAll (applyCommit (if clock.rollsOver then rollover s else s))

/-- Steps 1 and 2 for one station (R51, R52). -/
def counted (clock : Clock) (active : Vector SchedProfile 16) (st : Station) : Station :=
  setAllowance clock active (countMinute clock active st)

/-- Steps 1 to 6 for one station. -/
def boundaryStation (c : Schedule) (st : Station) : Station :=
  evaluate c.clock (activeAfter c)
    (retested c.commit (activeAfter c) (rolled c.clock.rollsOver (warn c.clock c.active (counted c.clock c.active st))))

/-- The reports of steps 1 to 6. -/
def boundaryReports (s : State) : List Report :=
  lowReports s.sched.clock s.sched.active (vmap (Option.map (counted s.sched.clock s.sched.active)) s.sta.stations) ++
    commitReports s.sched.commit

theorem boundaryStations_spec :
    let t := boundaryStations s
    Pass (boundaryReports s) (boundaryStation s.sched) s t ∧ t.sched = { s.sched with active := activeAfter s.sched, commit := none } ∧
      t.sta.carry = (if s.sched.clock.rollsOver then [] else s.sta.carry) ∧ KeepsAllBut [.sched, .sta, .cmd, .own] s t := by
  let a := mapStations (counted s.sched.clock s.sched.active) s
  let r := if s.sched.clock.rollsOver then rollover (warnLow a) else warnLow a
  have heq : boundaryStations s = evaluateAll (applyCommit r) := by
    have ha : mapStations (setAllowance s.sched.clock s.sched.active) (mapStations (countMinute s.sched.clock s.sched.active) s) = a := by
      simp only [mapStations, vmap_vmap, Option.map_comp_map]
      rfl
    rw [boundaryStations, ha]
  have hwarn : Pass (lowReports s.sched.clock s.sched.active a.sta.stations) (warn s.sched.clock s.sched.active) a (warnLow a) := warnLow_pass a
  have hfirst := ((Pass.silent (counted s.sched.clock s.sched.active) s).append hwarn).append (rollover_pass (warnLow a) s.sched.clock.rollsOver)
  obtain ⟨hwarned, hcarryw⟩ := warnLow_frame a
  obtain ⟨hroll, hcarry⟩ := rollover_frame (warnLow a) s.sched.clock.rollsOver
  have hr : KeepsAllBut [.sta, .cmd, .own] s r := (((mapStations_keeps _ s).append hwarned).append hroll).mono (by decide)
  have hsched : r.sched = s.sched := hr .sched (by decide)
  obtain ⟨hpass, hsched', hcarry', hkeep⟩ := applyCommit_spec r
  rw [hsched] at hpass hsched'
  rw [heq]
  have hall := (hfirst.append hpass).append (Pass.silent (evaluate (applyCommit r).sched.clock (applyCommit r).sched.active) (applyCommit r))
  rw [hsched', List.append_nil, List.append_nil, List.nil_append] at hall
  have hcarries : (evaluateAll (applyCommit r)).sta.carry = if s.sched.clock.rollsOver then [] else s.sta.carry := by
    rw [evaluateAll_carry, hcarry', hcarry, hcarryw]
    rfl
  have heval : KeepsAllBut [.sta] (applyCommit r) (evaluateAll (applyCommit r)) := mapStations_keeps _ _
  refine ⟨?_, ?_, hcarries, ((hr.append hkeep).append heval).mono (by decide)⟩
  · rw [evaluateAll, hsched']
    exact hall
  · rw [heval .sched (by decide)]
    exact hsched'

end Steps

/-! #### One station through the boundary -/

section OneStation

variable (clock : Clock) (a : Nat) (st : Station)

/-- The used minutes after step 1, under an allowance (R51). -/
def usedAfter : Nat := if clock.isSet && decide (0 < a) && st.active && !st.free then min (st.used + 1) 1440 else st.used

/-- The ALLOWANCE reason after step 2 (R52). -/
def reachedAfter : Bool :=
  st.reasons.allowance || (clock.isSet && decide (0 < a) && decide (min (a + st.extra) 1440 ≤ usedAfter clock a st))

/-- The minutes left are the five of ALLOWANCE_LOW (R53). -/
def fiveLeft : Bool :=
  clock.isSet && decide (0 < a) && decide (5 < min (a + st.extra) 1440) && decide (min (a + st.extra) 1440 - usedAfter clock a st = 5)

variable {clock a st} {active : Vector SchedProfile 16}

theorem counted_eq (ha : dayAllowance active st.sched = a) : counted clock active st =
    { st with used := usedAfter clock a st, active := false, reasons := { st.reasons with allowance := reachedAfter clock a st } } := by
  have hcount : countMinute clock active st = { st with used := usedAfter clock a st, active := false } := by
    rw [countMinute, allowanceOf_eq, ha]
    rfl
  have hover : overLimit active { st with used := usedAfter clock a st, active := false } =
      (decide (0 < a) && decide (min (a + st.extra) 1440 ≤ usedAfter clock a st)) := by
    rw [overLimit, allowanceOf_eq, ← ha]
    rfl
  rw [counted, setAllowance, hcount, hover, reachedAfter, Bool.and_assoc]
  cases clock.isSet && (decide (0 < a) && decide (min (a + st.extra) 1440 ≤ usedAfter clock a st))
  · rw [Bool.or_false]
    rfl
  · rw [Bool.or_true]
    rfl

theorem lowDue_counted (ha : dayAllowance active st.sched = a) :
    lowDue clock active (counted clock active st) = (fiveLeft clock a st && !st.lowSent) := by
  rw [counted_eq ha, lowDue, allowanceOf_eq, fiveLeft]
  subst ha
  rfl

theorem warn_counted (ha : dayAllowance active st.sched = a) : warn clock active (counted clock active st) =
    { st with
      used := usedAfter clock a st, active := false, lowSent := st.lowSent || fiveLeft clock a st,
      reasons := { st.reasons with allowance := reachedAfter clock a st } } := by
  rw [warn, lowDue_counted ha, counted_eq ha]
  cases st.lowSent <;> cases fiveLeft clock a st <;> rfl

/-- Steps 1 to 4 for one station. -/
theorem rolled_counted (ha : dayAllowance active st.sched = a) (newDay : Bool) : rolled newDay (warn clock active (counted clock active st)) =
    { st with
      used := if newDay then 0 else usedAfter clock a st, extra := if newDay then 0 else st.extra, active := false,
      lowSent := !newDay && (st.lowSent || fiveLeft clock a st),
      reasons := { st.reasons with allowance := !newDay && reachedAfter clock a st } } := by
  rw [warn_counted ha]
  cases newDay <;> rfl

/-- The re-test after a commit (R55). -/
theorem retest_spec (active : Vector SchedProfile 16) (st : Station) :
    let u := retest active st
    let a := dayAllowance active st.sched
    u = { st with lowSent := u.lowSent, reasons := { st.reasons with allowance := u.reasons.allowance } } ∧
      (u.reasons.allowance = true ↔ 0 < a ∧ min (a + st.extra) 1440 ≤ st.used) ∧
      (u.lowSent = true ↔ st.lowSent = true ∧ 0 < a ∧ min (a + st.extra) 1440 - st.used ≤ 5) := by
  have hover : overLimit active st = true ↔ 0 < dayAllowance active st.sched ∧ min (dayAllowance active st.sched + st.extra) 1440 ≤ st.used := by
    rw [overLimit, allowanceOf_eq, Bool.and_eq_true, decide_eq_true_iff, decide_eq_true_iff]
    rfl
  have hcond : (allowanceOf active (st.withAllowance (overLimit active st)) = 0 ∨
        5 < (st.withAllowance (overLimit active st)).remaining (allowanceOf active (st.withAllowance (overLimit active st)))) ↔
      (dayAllowance active st.sched = 0 ∨ 5 < min (dayAllowance active st.sched + st.extra) 1440 - st.used) := by
    rw [allowanceOf_eq]
    rfl
  dsimp only
  by_cases h : dayAllowance active st.sched = 0 ∨ 5 < min (dayAllowance active st.sched + st.extra) 1440 - st.used
  · have heq : retest active st = { st.withAllowance (overLimit active st) with lowSent := false } := if_pos (hcond.2 h)
    rw [heq]
    exact ⟨rfl, hover, nofun, fun hlow => absurd h (by omega)⟩
  · have heq : retest active st = st.withAllowance (overLimit active st) := if_neg (mt hcond.1 h)
    rw [heq]
    refine ⟨rfl, hover, fun hlow => ⟨hlow, ?_⟩, fun hlow => hlow.1⟩
    omega

end OneStation

/-- A pending commit names the profile of the station (R55). -/
def named (commit : Option (BitVec 16)) (st : Station) : Bool := commit.any fun mask => inMask mask st

/-- Steps 1 to 6 for one station, in the terms of the day's allowance before and after the commit. -/
theorem boundaryStation_spec (c : Schedule) (st : Station) :
    let u := boundaryStation c st
    let a := dayAllowance c.active st.sched
    let a' := dayAllowance (activeAfter c) st.sched
    let newDay := c.clock.rollsOver
    let warned := st.lowSent || fiveLeft c.clock a st
    u = { st with
      used := u.used, extra := u.extra, active := false, lowSent := u.lowSent, noUrgent := u.noUrgent, free := u.free,
      reasons := ⟨u.reasons.window, u.reasons.allowance, st.reasons.line, st.reasons.host⟩ } ∧
    u.used = (if newDay then 0 else usedAfter c.clock a st) ∧ u.extra = (if newDay then 0 else st.extra) ∧
    (named c.commit st = true →
      (u.reasons.allowance = true ↔ 0 < a' ∧ min (a' + u.extra) 1440 ≤ u.used) ∧
      (u.lowSent = true ↔ (!newDay && warned) = true ∧ 0 < a' ∧ min (a' + u.extra) 1440 - u.used ≤ 5)) ∧
    (named c.commit st = false → u.reasons.allowance = (!newDay && reachedAfter c.clock a st) ∧ u.lowSent = (!newDay && warned)) := by
  have hw := rolled_counted (clock := c.clock) (st := st) (active := c.active) rfl c.clock.rollsOver
  generalize hwd : rolled c.clock.rollsOver (warn c.clock c.active (counted c.clock c.active st)) = w at hw
  obtain ⟨window, noUrgent, free, hevaluated⟩ := evaluate_frame c.clock (activeAfter c) (retested c.commit (activeAfter c) w)
  have hu : boundaryStation c st = (retested c.commit (activeAfter c) w).withWindow window noUrgent free := by
    rw [boundaryStation, hwd, hevaluated]
  have hnamed : named c.commit w = named c.commit st := by rw [hw]; rfl
  dsimp only
  rw [hu]
  cases hn : named c.commit st with
  | true =>
    have hr : retested c.commit (activeAfter c) w = retest (activeAfter c) w := if_pos (hnamed.trans hn)
    obtain ⟨hframe, hallowance, hlow⟩ := retest_spec (activeAfter c) w
    generalize (retest (activeAfter c) w).lowSent = low at hframe hlow
    generalize (retest (activeAfter c) w).reasons.allowance = allowance at hframe hallowance
    rw [hr, hframe]
    rw [hw] at hallowance hlow ⊢
    exact ⟨rfl, rfl, rfl, fun _ => ⟨hallowance, hlow⟩, nofun⟩
  | false =>
    have hr : retested c.commit (activeAfter c) w = w := if_neg (by rw [← named, hnamed, hn]; decide)
    rw [hr, hw]
    exact ⟨rfl, rfl, rfl, nofun, fun _ => ⟨rfl, rfl⟩⟩

theorem named_iff {commit : Option (BitVec 16)} {st : Station} : named commit st = true ↔
    ∃ k, st.sched = some k ∧ ∃ mask, commit = some mask ∧ mask.getLsbD k.val = true := by
  rw [named, Option.any_eq_true]
  simp only [inMask, Option.any_eq_true]
  constructor
  · rintro ⟨mask, hmask, k, hk, hbit⟩
    exact ⟨k, hk, mask, hmask, hbit⟩
  · rintro ⟨k, hk, mask, hmask, hbit⟩
    exact ⟨mask, hmask, k, hk, hbit⟩

theorem activeAfter_at (c : Schedule) (k : Fin 16) :
    ((∃ mask, c.commit = some mask ∧ mask.getLsbD k.val = true) → (activeAfter c)[k] = c.shadow[k]) ∧
      ((¬∃ mask, c.commit = some mask ∧ mask.getLsbD k.val = true) → (activeAfter c)[k] = c.active[k]) := by
  unfold activeAfter
  cases c.commit with
  | none => exact ⟨fun ⟨_, h, _⟩ => absurd h nofun, fun _ => rfl⟩
  | some mask =>
    have hat : (committed mask c.active c.shadow)[k] = if mask.getLsbD k.val = true then c.shadow[k] else c.active[k] := by simp [committed]
    refine ⟨fun ⟨m, hm, hbit⟩ => ?_, fun hno => hat.trans (if_neg fun hbit => hno ⟨mask, rfl, hbit⟩)⟩
    cases hm
    exact hat.trans (if_pos hbit)

section Lows

variable {clock : Clock} {active : Vector SchedProfile 16} {st : Station} {a : Nat}

/-- The report of step 3 for one station, in the terms of the day's allowance (R53). -/
theorem lowReport_eq (ha : dayAllowance active st.sched = a) (i : Fin 128) :
    (if lowDue clock active (counted clock active st) then
      some (Report.allowanceLow i (counted clock active st).used (counted clock active st).extra
        ((counted clock active st).limit (allowanceOf active (counted clock active st)))
        ((counted clock active st).remaining (allowanceOf active (counted clock active st))))
    else none) =
      if (fiveLeft clock a st && !st.lowSent) = true then
        some (.allowanceLow i (usedAfter clock a st) st.extra (min (a + st.extra) 1440) 5)
      else none := by
  rw [lowDue_counted ha]
  by_cases h : (fiveLeft clock a st && !st.lowSent) = true
  · have hfive : min (a + st.extra) 1440 - usedAfter clock a st = 5 := by
      have hleft := (Bool.and_eq_true _ _ ▸ h).1
      rw [fiveLeft, Bool.and_eq_true] at hleft
      exact of_decide_eq_true hleft.2
    rw [if_pos h, if_pos h, counted_eq ha, allowanceOf_eq, ← hfive, ← ha]
    rfl
  · rw [if_neg h, if_neg h]

end Lows

/-! #### The activation check -/

theorem activationReady_iff (s : State) : activationReady s = true ↔
    s.img.window.enabled = true ∧ s.sched.clock.isSet = true ∧ s.img.window.days.getLsbD (s.sched.clock.minute / 1440) = true ∧
      s.img.window.start ≤ s.sched.clock.minute % 1440 ∧ s.sched.clock.minute % 1440 < s.img.window.stop ∧
      s.img.staging.state = .verified ∧ s.img.dueSent = false ∧
      ∀ (i : Fin 128) (st : Station), s.sta.stations[i] = some st → st.state ≠ .candidate ∧ st.state ≠ .handoff ∧
        ∀ u, st.lastUrgent = some u → s.img.window.quiet < s.time.secs - u := by
  have hquiet (st : Station) : quietFor s.now s.img.window.quiet st = true ↔ st.state ≠ .candidate ∧ st.state ≠ .handoff ∧
      ∀ u, st.lastUrgent = some u → s.img.window.quiet < s.time.secs - u := by
    rw [quietFor, Bool.and_eq_true, Bool.and_eq_true, bne_iff_ne, bne_iff_ne, and_assoc]
    refine and_congr Iff.rfl (and_congr Iff.rfl ?_)
    cases st.lastUrgent with
    | none => exact ⟨fun _ => nofun, fun _ => rfl⟩
    | some t => exact ⟨fun h u hu => Option.some.inj hu ▸ of_decide_eq_true h, fun h => decide_eq_true (h t rfl)⟩
  have hall : (s.sta.stations.toList.all fun o => o.all (quietFor s.now s.img.window.quiet)) = true ↔
      ∀ (i : Fin 128) (st : Station), s.sta.stations[i] = some st → st.state ≠ .candidate ∧ st.state ≠ .handoff ∧
        ∀ u, st.lastUrgent = some u → s.img.window.quiet < s.time.secs - u := by
    rw [List.all_eq_true]
    constructor
    · intro h i st hi
      have ho := h (some st) (hi ▸ by simp)
      exact (hquiet st).1 ho
    · intro h o ho
      obtain ⟨i, hi, rfl⟩ := List.mem_iff_getElem.1 ho
      rw [Option.all_eq_true]
      intro st hst
      exact (hquiet st).2 (h ⟨i, by simpa using hi⟩ st (by simpa using hst))
  simp only [activationReady, Bool.and_eq_true, decide_eq_true_eq, Bool.not_eq_true', hall, and_assoc]
  rfl

section CheckActivation

variable {u : State}

theorem checkActivation_ready {bank : Bank} (h : activationReady u = true) (hb : u.img.staging.bank = some bank) :
    checkActivation u = offer (.activationDue bank u.img.staging.version u.sched.clock.minute u.now)
      { u with img := { u.img with dueSent := true } } := by
  refine (if_pos h).trans ?_
  dsimp only
  rw [hb]

theorem checkActivation_notReady (h : activationReady u ≠ true) : checkActivation u = u := if_neg h

theorem checkActivation_keeps (u : State) : KeepsAllBut [.img, .cmd, .own] u (checkActivation u) := by
  unfold checkActivation
  split
  · exact (keeps_img _ u).append (offer_keeps _ _)
  · exact .refl _ u

end CheckActivation

/-! #### The boundary whole -/

/-- The Schedule Unit at the new minute, before the steps (R40). -/
def atNextMinute (c : Schedule) : Schedule := { c with clock := c.clock.nextMinute, minuteDue := false }

section Whole

variable {s : State}

/-- The state in which the activation is checked. -/
def beforeCheck (s : State) : State := boundaryStations { s with sched := atNextMinute s.sched }

theorem takeBoundary_eq (s : State) : takeBoundary s =
    offerAll (gateReports .boundary s.sta.stations (checkActivation (beforeCheck s)).sta.stations) (checkActivation (beforeCheck s)) := by
  rw [← reportGates_eq]
  rfl

theorem beforeCheck_spec (s : State) :
    Pass (boundaryReports { s with sched := atNextMinute s.sched }) (boundaryStation (atNextMinute s.sched)) s (beforeCheck s) ∧
      (beforeCheck s).sched = { atNextMinute s.sched with active := activeAfter s.sched, commit := none } ∧
      (beforeCheck s).sta.carry = (if (atNextMinute s.sched).clock.rollsOver then [] else s.sta.carry) ∧
      KeepsAllBut [.sched, .sta, .cmd, .own] s (beforeCheck s) := by
  obtain ⟨hpass, hsched, hcarry, hkeep⟩ := boundaryStations_spec { s with sched := atNextMinute s.sched }
  exact ⟨(Pass.schedule (atNextMinute s.sched) s).append hpass, hsched, hcarry, ((keeps_sched _ s).append hkeep).mono (by decide)⟩

theorem takeBoundary_tables (s : State) :
    let t := takeBoundary s
    t.sched = { atNextMinute s.sched with active := activeAfter s.sched, commit := none } ∧ t.sta = (beforeCheck s).sta ∧
      t.img = (checkActivation (beforeCheck s)).img := by
  obtain ⟨-, hsched, -, -⟩ := beforeCheck_spec s
  have hcheck := checkActivation_keeps (beforeCheck s)
  have hoff := offerAll_keeps (gateReports .boundary s.sta.stations (checkActivation (beforeCheck s)).sta.stations)
    (checkActivation (beforeCheck s))
  dsimp only
  rw [takeBoundary_eq]
  exact ⟨((hoff .sched (by decide)).trans (hcheck .sched (by decide))).trans hsched,
    (hoff .sta (by decide)).trans (hcheck .sta (by decide)), hoff .img (by decide)⟩

/-- The activation condition in the terms of the state before the boundary: no step touches what it asks of a station. -/
theorem beforeCheck_ready (s : State) : activationReady (beforeCheck s) = true ↔
    s.img.window.enabled = true ∧ s.sched.clock.nextMinute.isSet = true ∧
      s.img.window.days.getLsbD (s.sched.clock.nextMinute.minute / 1440) = true ∧
      s.img.window.start ≤ s.sched.clock.nextMinute.minute % 1440 ∧ s.sched.clock.nextMinute.minute % 1440 < s.img.window.stop ∧
      s.img.staging.state = .verified ∧ s.img.dueSent = false ∧
      ∀ (i : Fin 128) (st : Station), s.sta.stations[i] = some st → st.state ≠ .candidate ∧ st.state ≠ .handoff ∧
        ∀ u, st.lastUrgent = some u → s.img.window.quiet < s.time.secs - u := by
  obtain ⟨hpass, hsched, -, hkeep⟩ := beforeCheck_spec s
  have himg : (beforeCheck s).img = s.img := hkeep .img (by decide)
  have htime : (beforeCheck s).time = s.time := hkeep .time (by decide)
  have hframe (st : Station) : (boundaryStation (atNextMinute s.sched) st).state = st.state ∧
      (boundaryStation (atNextMinute s.sched) st).lastUrgent = st.lastUrgent := by
    obtain ⟨h, -⟩ := boundaryStation_spec (atNextMinute s.sched) st
    generalize boundaryStation (atNextMinute s.sched) st = u at h
    rw [h]
    exact ⟨rfl, rfl⟩
  rw [activationReady_iff, himg, htime, hsched]
  refine and_congr Iff.rfl (and_congr Iff.rfl (and_congr Iff.rfl (and_congr Iff.rfl (and_congr Iff.rfl (and_congr Iff.rfl
    (and_congr Iff.rfl ⟨fun h i st hi => ?_, fun h i v hi => ?_⟩))))))
  · have hv := h i _ ((hpass.stationsAt i).trans (congrArg _ hi))
    rwa [(hframe st).1, (hframe st).2] at hv
  · obtain ⟨st, hst, rfl⟩ := Option.map_eq_some_iff.1 ((hpass.stationsAt i).symm.trans hi)
    rw [(hframe st).1, (hframe st).2]
    exact h i st hst

/-- The reports of the boundary, in the order of the steps: those of the check stand between those of the steps before it and the gates. -/
theorem takeBoundary_reporting {rs : List Report}
    (h : SameReporting (offerAll rs (beforeCheck s)) (checkActivation (beforeCheck s))) :
    SameReporting (offerAll (boundaryReports { s with sched := atNextMinute s.sched } ++ rs ++
      gateReports .boundary s.sta.stations (takeBoundary s).sta.stations) s) (takeBoundary s) := by
  obtain ⟨hpass, -, -, -⟩ := beforeCheck_spec s
  have hsta : (takeBoundary s).sta = (checkActivation (beforeCheck s)).sta := by
    rw [takeBoundary_eq]
    exact offerAll_keeps _ _ .sta (by decide)
  have hgates := takeBoundary_eq s
  rw [← hsta] at hgates
  refine (hpass.reporting.offerMore h).offerMore ?_
  rw [← hgates]
  exact .refl _

theorem takeBoundary_due {bank : Bank} (h : activationReady (beforeCheck s) = true) (hb : s.img.staging.bank = some bank) :
    (takeBoundary s).img = { s.img with dueSent := true } ∧
      Reports [.sched, .sta, .img] (boundaryReports { s with sched := atNextMinute s.sched } ++
        [.activationDue bank s.img.staging.version s.sched.clock.nextMinute.minute s.time.secs] ++
        gateReports .boundary s.sta.stations (takeBoundary s).sta.stations) s (takeBoundary s) := by
  obtain ⟨-, hsched, -, hkeep⟩ := beforeCheck_spec s
  have himg : (beforeCheck s).img = s.img := hkeep .img (by decide)
  have htime : (beforeCheck s).time = s.time := hkeep .time (by decide)
  have hcheck := checkActivation_ready h (bank := bank) (himg ▸ hb)
  have hreport : Report.activationDue bank (beforeCheck s).img.staging.version (beforeCheck s).sched.clock.minute (beforeCheck s).now =
      .activationDue bank s.img.staging.version s.sched.clock.nextMinute.minute s.time.secs := by
    rw [himg, hsched, State.now, htime]
    rfl
  rw [hreport] at hcheck
  obtain ⟨-, -, htables⟩ := takeBoundary_tables s
  refine ⟨?_, (takeBoundary_reporting ?_).reports ((takeBoundary_keeps s).mono (by decide))⟩
  · rw [htables, hcheck, offer_keeps _ _ .img (by decide), ← himg]
  · rw [hcheck]
    exact offer_parts _ ⟨rfl, rfl, rfl, rfl⟩

theorem takeBoundary_notDue (h : activationReady (beforeCheck s) ≠ true) :
    Reports [.sched, .sta] (boundaryReports { s with sched := atNextMinute s.sched } ++
      gateReports .boundary s.sta.stations (takeBoundary s).sta.stations) s (takeBoundary s) := by
  obtain ⟨-, -, -, hkeep⟩ := beforeCheck_spec s
  obtain ⟨-, -, htables⟩ := takeBoundary_tables s
  have hcheck := checkActivation_notReady h
  have himg : (takeBoundary s).img = s.img := by
    rw [htables, hcheck]
    exact hkeep .img (by decide)
  have hrep := takeBoundary_reporting (s := s) (rs := []) (by rw [hcheck]; exact .refl _)
  rw [List.append_nil] at hrep
  exact hrep.reports ((takeBoundary_keeps s).without (b := .img) himg (by decide))

end Whole

/-- ALLOWANCE_LOW as step 3 of the boundary reports it. -/
def boundaryLows (s : State) : List Report :=
  lowReports s.sched.clock.nextMinute s.sched.active (vmap (Option.map (counted s.sched.clock.nextMinute s.sched.active)) s.sta.stations)

theorem boundaryLows_eq {s : State} {f : Fin 128 → Option Report}
    (hnone : ∀ i, s.sta.stations[i] = none → f i = none)
    (hsome : ∀ i st, s.sta.stations[i] = some st → f i =
      if (fiveLeft s.sched.clock.nextMinute (dayAllowance s.sched.active st.sched) st && !st.lowSent) = true then
        some (.allowanceLow i (usedAfter s.sched.clock.nextMinute (dayAllowance s.sched.active st.sched) st) st.extra
          (min (dayAllowance s.sched.active st.sched + st.extra) 1440) 5)
      else none) :
    boundaryLows s = (List.finRange 128).filterMap f := by
  rw [boundaryLows, lowReports, stationList]
  refine congrArg (fun g => List.filterMap g (List.finRange 128)) (funext fun i => ?_)
  rw [vmap_at]
  cases hi : s.sta.stations[i] with
  | none => exact (hnone i hi).symm
  | some st => exact (lowReport_eq rfl i).trans (hsome i st hi).symm

theorem minuteBoundary_reset {s : State} (hdue : s.sched.minuteDue = true) (hrst : s.pins.rst = true) :
    minuteBoundary s = boundaryInReset s := by
  refine (if_pos hdue).trans (if_pos ?_)
  rw [hrst, Bool.or_true]

theorem minuteBoundary_running {s : State} (hdue : s.sched.minuteDue = true) (hrst : s.pins.rst = false) (hpor : s.pins.por = false) :
    minuteBoundary s = takeBoundary s := by
  refine (if_pos hdue).trans (if_neg ?_)
  rw [hrst, hpor]
  decide

theorem rollsOver_iff {c : Clock} : c.rollsOver = true ↔ c.minute % 1440 = 0 := beq_iff_eq

theorem boundaryInReset_spec (s : State) : KeepsAllBut [.sched, .sta] s (boundaryInReset s) ∧
    (boundaryInReset s).sched = atNextMinute s.sched ∧
    (boundaryInReset s).sta = { s.sta with carry := if (s.sched.clock.minute + 1) % 10080 % 1440 = 0 then [] else s.sta.carry } := by
  have hrolls : s.sched.clock.nextMinute.rollsOver = true ↔ (s.sched.clock.minute + 1) % 10080 % 1440 = 0 := rollsOver_iff
  by_cases h : (s.sched.clock.minute + 1) % 10080 % 1440 = 0
  · have heq : boundaryInReset s = { s with sched := atNextMinute s.sched, sta := { s.sta with carry := [] } } := if_pos (hrolls.2 h)
    rw [heq, if_pos h]
    exact ⟨(keeps_sched (atNextMinute s.sched) s).append (keeps_sta { s.sta with carry := [] } _), rfl, rfl⟩
  · have heq : boundaryInReset s = { s with sched := atNextMinute s.sched } := if_neg (mt hrolls.1 h)
    rw [heq, if_neg h]
    exact ⟨(keeps_sched _ s).mono (by decide), rfl, rfl⟩

/-- Settles O43: the boundary is one pass over the stations (`beforeCheck_spec`, `boundaryStation_spec`), the activation check, and the
gate changes. -/
theorem minuteBoundaryTakesItsSteps : Obligations.MinuteBoundaryTakesItsSteps := by
  refine ⟨fun s hdue hrst => ⟨_, congrArg Host.Outcome.next (minuteBoundary_reset hdue hrst), boundaryInReset_spec s⟩,
    fun s hdue hrst hpor => ⟨_, boundaryLows s, congrArg Host.Outcome.next (minuteBoundary_running hdue hrst hpor), ?_⟩⟩
  intro m clock newDay due
  obtain ⟨hpass, -, hcarry, -⟩ := beforeCheck_spec s
  obtain ⟨hsched, hsta, -⟩ := takeBoundary_tables s
  have hday : (atNextMinute s.sched).clock.rollsOver = true ↔ newDay := rollsOver_iff
  refine ⟨?_, fun k => ?_, ?_, ?_, fun i hi => ?_, ?_, fun i st hi => ?_, ?_⟩
  · rw [hsched]
    rfl
  · rw [hsched]
    exact activeAfter_at s.sched k
  · rw [hsta]
    exact hpass.unknown
  · rw [hsta, hcarry]
    exact if_congr hday rfl rfl
  · rw [hsta]
    exact (hpass.stationsAt i).trans (congrArg _ hi)
  · refine boundaryLows_eq (fun i hi => ?_) fun i st hi => ?_
    · rw [hi]
    · rw [hi]
      rfl
  · rw [hsched, hsta]
    obtain ⟨hframe, hused, hextra, hnamed, hplain⟩ := boundaryStation_spec (atNextMinute s.sched) st
    have hkeeps {b : Bool} : (!(atNextMinute s.sched).clock.rollsOver && b) = true ↔ ¬newDay ∧ b = true := by
      rw [Bool.and_eq_true, not_eq_true_iff, hday]
    refine ⟨_, (hpass.stationsAt i).trans (congrArg _ hi), evaluate_spec .., hframe,
      fun hn => ⟨hused.trans (if_pos (hday.2 hn)), hextra.trans (if_pos (hday.2 hn))⟩,
      fun hn => ⟨hused.trans (if_neg (mt hday.1 hn)), hextra.trans (if_neg (mt hday.1 hn))⟩, fun k hk hd => ?_, fun hno hn => ?_, fun hno hn => ?_⟩
    · obtain ⟨hallowance, hlow⟩ := hnamed (named_iff.2 ⟨k, hk, hd⟩)
      exact ⟨hallowance, hlow.trans ((and_congr hkeeps Iff.rfl).trans and_assoc)⟩
    all_goals
      obtain ⟨hallowance, hlow⟩ := hplain (Bool.eq_false_iff.2 (mt named_iff.1 fun ⟨k, hk, hd⟩ => hno k hk hd))
    · rw [hallowance, hlow, hday.2 hn]
      exact ⟨rfl, rfl⟩
    · rw [hallowance, hlow, Bool.eq_false_iff.2 (mt hday.1 hn)]
      exact ⟨rfl, rfl⟩
  · intro applied g ready
    have happlied : applied = commitReports s.sched.commit := by
      dsimp only [applied]
      cases s.sched.commit <;> rfl
    rw [happlied]
    exact ⟨fun bank hb hr => takeBoundary_due ((beforeCheck_ready s).2 hr) hb, fun hr => takeBoundary_notDue (mt (beforeCheck_ready s).1 hr)⟩

end Sys2Proof.Machine
